-- ==== Sys2Proof/Word.lean ====
section
/-! DEFINITION. The word types of the engine: the byte, the nibble, and a Boolean read as a number (00_scope.md section 5). -/

namespace Sys2Proof

/-- An 8-bit value: a command byte, a data byte, a status byte, a byte of `recv()`. -/
abbrev Byte := BitVec 8

/-- A 4-bit value on the four data lines, bit `i` on line `i` (20_memory.md R55). -/
abbrev Nibble := BitVec 4

/-- "A Boolean operand used in arithmetic counts as 1 for true and 0 for false" (00_scope.md section 5). -/
def bit (b : Bool) : Byte := if b then 1#8 else 0#8

end Sys2Proof
end

