-- ==== Sys2Proof/Config.lean ====
section
/-! DEFINITION. What is fixed from reset to reset: the variant, the parameters of 00_scope.md R5, the bus record of 30_encoding.md R70, and the free values. -/

namespace Sys2Proof

/-- The timing strategy, one for a session (R2): busy-flag polling on a bidirectional bus, or fixed delays on a
write-only bus. -/
inductive Variant where
  | bf
  | fd
  deriving DecidableEq, Repr, Inhabited

/-- The bus record `{rs, rw, e, d}` of R70. `rw` is absent in the FD variant (R71); `d = none` is "absent = tri-stated". -/
structure BusState where
  rs : Bool
  rw : Option Bool
  e  : Bool
  d  : Option Nibble
  deriving DecidableEq, Repr, Inhabited

/-- The configuration: `VARIANT` and the parameters of R5. It is plain data, sampled at reset and written by no
operation (R23, R210). All durations are nanoseconds. -/
structure Config where
  variant : Variant
  /-- `T_AS`, address-setup delay. OPEN. -/
  tAS : Nat
  /-- `T_PW`, enable-pulse-width delay of a write. OPEN. -/
  tPW : Nat
  /-- `T_CYCR`, remainder of the enable cycle. OPEN. -/
  tCYCR : Nat
  /-- `T_DDR`, data-delay before sampling. OPEN. -/
  tDDR : Nat
  /-- `T_RDH`, second delay before lowering Enable in a read. OPEN. -/
  tRDH : Nat
  tINIT1 : Nat
  tINIT2 : Nat
  tINIT3 : Nat
  tEXEC : Nat
  tCLEAR : Nat
  /-- `TICK_NS`, the period of the timer's tick. OPEN, at least 1. -/
  tickNs : Nat
  /-- `LEN_MAX`, the largest length of a `WRITE` byte sequence or a `READ` request. OPEN. -/
  lenMax : Nat
  deriving DecidableEq, Repr, Inhabited

/-- What R5 and R6 let a model rely on: `TICK_NS >= 1`, `T_INIT1 >= 4 100 000`, `T_INIT2 >= 100 000`. -/
def Config.wf (cfg : Config) : Bool :=
  decide (1 ≤ cfg.tickNs) && decide (4100000 ≤ cfg.tINIT1) && decide (100000 ≤ cfg.tINIT2)

/-- `FUNCTION_SET_BYTE` (R5, R82). PRESUMED (log 8, unsafe): 0x28 is general knowledge of the HD44780U, not in the source. -/
def Config.functionSetByte : Byte := 0x28#8

/-- The session `State.reset` begins. VARIANT, the five intra-nibble delays, TICK_NS and LEN_MAX are OPEN in R5:
DESIGN CHOICE (log 6, unsafe), the delays PRESUMED from the family's bus timing (93_implementation_defined.md G3).
The other five are the nominal values of R5 (log 7, unsafe). Statements about reset quantify over every configuration. -/
def Config.session : Config where
  variant := .bf
  tAS := 60
  tPW := 450
  tCYCR := 550
  tDDR := 360
  tRDH := 90
  tINIT1 := 4100000
  tINIT2 := 100000
  tINIT3 := 37000
  tEXEC := 37000
  tCLEAR := 1520000
  tickNs := 1
  lenMax := 128

/-- FREE VALUE (log 4, safe): the byte a `recv()` returns when the run prescribes none; "a free 8-bit input (a draw)" (R34). -/
opaque Config.recvDraw : Nat → Byte

/-- FREE VALUE (log 5, safe): the lines after a failed `send`, "the old value, `bs`, or anything between" (R182, U5). -/
opaque Config.busAfterFailure : Nat → BusState

end Sys2Proof
end

