-- ==== Sys2Proof/Syntax.lean ====
section
/-! DEFINITION. The syntax: one constructor of `Instr` per row of spec/opcode_table.json, and the encoded forms an instruction can have on a wire (30_encoding.md). -/

namespace Sys2Proof

/-- The thirty rows of the opcode table, in its order: command bytes (CMD8), the data byte, the two single nibbles,
the status byte, the host operations (HOSTOP) and the internal transactions, which have no encoding. -/
inductive Instr where
  -- CMD8 (R75)
  | cmdClear
  | cmdHome
  | cmdEntryMode (leftToRight shift : Bool)
  | cmdDisplayControl (displayOn cursorOn blinkOn : Bool)
  | cmdFunctionSet
  | cmdSetCgram (a : BitVec 6)
  | cmdSetDdram (a : BitVec 7)
  -- DATA8 (R84)
  | data (b : Byte)
  -- NIB4 (R83)
  | initNibble3
  | initNibble2
  -- STATUS-READ (R74)
  | status (busy : Bool) (ignored : BitVec 7)
  -- HOSTOP (R88)
  | opInit
  | opClear
  | opHome
  | opEntryMode (leftToRight shift : Bool)
  | opDisplayControl (displayOn cursorOn blinkOn : Bool)
  | opWrite (line : BitVec 1) (column : BitVec 6) (bytes : List Byte)
  | opRead (line : BitVec 1) (column : BitVec 6) (length : Nat)
  | opDefineChar (code : BitVec 4) (bitmap : List Byte)
  | opReserved (low : BitVec 3)
  -- INTERNAL
  | write4 (rs : Bool) (n : Nibble)
  | read4 (rs : Bool)
  | write8 (rs : Bool) (b : Byte)
  | read8 (rs : Bool)
  | doCmd (b : Byte)
  | doData (b : Byte)
  | readData
  | policyWait
  | busyWait
  | delay (n : Nat)
  deriving DecidableEq, Repr

/-- A request on the request channel, as the ports of D3 and R88 carry it: the selector and every operand port.
"An operand not listed for an operation is ignored by it." -/
structure Request where
  opsel  : BitVec 4
  line   : BitVec 1 := 0#1
  column : BitVec 6 := 0#6
  /-- bit 2 `displayOn`; bit 1 `cursorOn` or `leftToRight`; bit 0 `blinkOn` or `shift` (R24). -/
  flags  : BitVec 3 := 0#3
  code   : BitVec 4 := 0#4
  /-- the length of the bitmap of `DEFINE_CHAR`. -/
  blen   : BitVec 4 := 0#4
  /-- the length of the bytes of `WRITE`, or the `length` of `READ`. -/
  len    : Nat := 0
  /-- the byte stream: the bytes of `WRITE` or the bitmap of `DEFINE_CHAR`. -/
  stream : List Byte := []
  deriving DecidableEq, Repr

/-- An encoded instruction, told apart by the place it stands in: "the length of a transaction is decided by its
position in the operation, never by its content" (R83). -/
inductive Wire where
  | cmd (b : Byte)
  | data (b : Byte)
  | nibble (n : Nibble)
  | status (b : Byte)
  | request (r : Request)
  deriving DecidableEq, Repr

/-- Why a wire holds no instruction. -/
inductive Reject where
  /-- a byte no command form has: 0x00, 0x03, 0x10 to 0x1F, 0x20 to 0x3F other than FUNCTION_SET (R75, R91). -/
  | noSuchCommand
  /-- a single nibble other than 0x3 and 0x2 (R92). -/
  | noSuchNibble
  /-- the byte stream does not have the length its length port gives (R88). -/
  | streamLength
  deriving DecidableEq, Repr

end Sys2Proof
end

