-- ==== Sys2Proof/WellFormed.lean ====
section
/-! DEFINITION. Which instructions exist for a configuration: operand ranges of the ports (R88, D3) and the BF-only primitives (R131). -/

namespace Sys2Proof

/-- The longest delay the engine ever asks for (R140). -/
def Config.maxDelay (cfg : Config) : Nat :=
  [cfg.tINIT1, cfg.tCLEAR, cfg.tINIT2, cfg.tEXEC, cfg.tINIT3, cfg.tAS, cfg.tPW, cfg.tCYCR, cfg.tDDR, cfg.tRDH].foldl max 0

/-- An instruction whose operands the engine's ports and parameters admit. `WRITE` and `READ` lengths are at most
`LEN_MAX`, a bitmap's length port is 4 bits wide (R88); the reading primitives exist only in the BF variant (R131);
no delay is longer than the timer's width allows (R140). -/
def Instr.wf (cfg : Config) : Instr → Bool
  | .cmdClear | .cmdHome | .cmdFunctionSet => true
  | .cmdEntryMode _ _ | .cmdDisplayControl _ _ _ => true
  | .cmdSetCgram _ | .cmdSetDdram _ | .data _ => true
  | .initNibble3 | .initNibble2 => true
  | .status _ _ => decide (cfg.variant = .bf)
  | .opInit | .opClear | .opHome => true
  | .opEntryMode _ _ | .opDisplayControl _ _ _ => true
  | .opWrite _ _ bytes => decide (bytes.length ≤ cfg.lenMax)
  | .opRead _ _ length => decide (length ≤ cfg.lenMax)
  | .opDefineChar _ bitmap => decide (bitmap.length ≤ 15)
  | .opReserved _ => true
  | .write4 _ _ | .write8 _ _ => true
  | .read4 _ | .read8 _ => decide (cfg.variant = .bf)
  | .doCmd _ | .doData _ => true
  | .readData | .busyWait => decide (cfg.variant = .bf)
  | .policyWait => true
  | .delay n => decide (n ≤ cfg.maxDelay)

end Sys2Proof
end

