-- ==== Sys2Proof/Decode.lean ====
section
/-! DEFINITION. The decoder (total, rejecting by name), the encoder, the opcode table's rows, and the host's view of the table's words (30_encoding.md). -/

namespace Sys2Proof

-- The command bytes (R76 to R82)

/-- `ENTRY_MODE` is `0x04 | leftToRight<<1 | shift<<0` (R78). -/
def entryModeByte (leftToRight shift : Bool) : Byte :=
  0x04#8 ||| (bit leftToRight <<< 1) ||| bit shift

/-- `DISPLAY_CONTROL` is `0x08 | displayOn<<2 | cursorOn<<1 | blinkOn<<0` (R79). -/
def displayControlByte (displayOn cursorOn blinkOn : Bool) : Byte :=
  0x08#8 ||| (bit displayOn <<< 2) ||| (bit cursorOn <<< 1) ||| bit blinkOn

/-- `SET_CGRAM` is `0x40 | a` (R80). -/
def setCgramByte (a : BitVec 6) : Byte := 0x40#8 ||| a.setWidth 8

/-- `SET_DDRAM` is `0x80 | a` (R81). -/
def setDdramByte (a : BitVec 7) : Byte := 0x80#8 ||| a.setWidth 8

/-- `CLEAR` is the byte 0x01 (R76). -/
def clearByte : Byte := 0x01#8

/-- `HOME` is the byte 0x02 (R77). -/
def homeByte : Byte := 0x02#8

-- The request ports (R88)

/-- `A_FLAGS` of an `ENTRY_MODE` request: bit 1 `leftToRight`, bit 0 `shift` (R24). -/
def entryModeFlags (leftToRight shift : Bool) : BitVec 3 :=
  BitVec.ofBool false ++ BitVec.ofBool leftToRight ++ BitVec.ofBool shift

/-- `A_FLAGS` of a `DISPLAY_CONTROL` request: bit 2 `displayOn`, bit 1 `cursorOn`, bit 0 `blinkOn` (R24). -/
def displayControlFlags (displayOn cursorOn blinkOn : Bool) : BitVec 3 :=
  BitVec.ofBool displayOn ++ BitVec.ofBool cursorOn ++ BitVec.ofBool blinkOn

def initRequest : Request where
  opsel := 0x0#4

def clearRequest : Request where
  opsel := 0x1#4

def homeRequest : Request where
  opsel := 0x2#4

def entryModeRequest (leftToRight shift : Bool) : Request where
  opsel := 0x3#4
  flags := entryModeFlags leftToRight shift

def displayControlRequest (displayOn cursorOn blinkOn : Bool) : Request where
  opsel := 0x4#4
  flags := displayControlFlags displayOn cursorOn blinkOn

def writeRequest (line : BitVec 1) (column : BitVec 6) (bytes : List Byte) : Request where
  opsel := 0x5#4
  line := line
  column := column
  len := bytes.length
  stream := bytes

def readRequest (line : BitVec 1) (column : BitVec 6) (length : Nat) : Request where
  opsel := 0x6#4
  line := line
  column := column
  len := length

def defineCharRequest (code : BitVec 4) (bitmap : List Byte) : Request where
  opsel := 0x7#4
  code := code
  blen := BitVec.ofNat 4 bitmap.length
  stream := bitmap

/-- Reserved selectors 0x8 to 0xF (R89): bit 3 set, the low three bits free. -/
def reservedRequest (low : BitVec 3) : Request where
  opsel := BitVec.ofBool true ++ low

-- The decoder

/-- A command byte by the match and mask columns of R75: "a byte `b` is of the form when `b & mask = match`". -/
def decodeCmd (b : Byte) : Except Reject Instr :=
  if b &&& 0xFF#8 = 0x01#8 then .ok .cmdClear
  else if b &&& 0xFF#8 = 0x02#8 then .ok .cmdHome
  else if b &&& 0xFC#8 = 0x04#8 then .ok (.cmdEntryMode (b.getLsbD 1) (b.getLsbD 0))
  else if b &&& 0xF8#8 = 0x08#8 then .ok (.cmdDisplayControl (b.getLsbD 2) (b.getLsbD 1) (b.getLsbD 0))
  else if b &&& 0xFF#8 = Config.functionSetByte then .ok .cmdFunctionSet
  else if b &&& 0xC0#8 = 0x40#8 then .ok (.cmdSetCgram (b.extractLsb' 0 6))
  else if b &&& 0x80#8 = 0x80#8 then .ok (.cmdSetDdram (b.extractLsb' 0 7))
  else .error .noSuchCommand

/-- A single nibble of `INIT` (R83, R92). -/
def decodeNibble (n : Nibble) : Except Reject Instr :=
  if n = 0x3#4 then .ok .initNibble3
  else if n = 0x2#4 then .ok .initNibble2
  else .error .noSuchNibble

/-- A status byte: bit 7 the busy flag, bits 6:0 ignored (R74). -/
def decodeStatus (b : Byte) : Instr := .status (b.getLsbD 7) (b.extractLsb' 0 7)

/-- A request by its selector (R88); operands not listed for an operation are ignored; selectors 0x8 to 0xF are
the reserved operation (R89). -/
def decodeRequest (r : Request) : Except Reject Instr :=
  if r.opsel = 0x0#4 then .ok .opInit
  else if r.opsel = 0x1#4 then .ok .opClear
  else if r.opsel = 0x2#4 then .ok .opHome
  else if r.opsel = 0x3#4 then .ok (.opEntryMode (r.flags.getLsbD 1) (r.flags.getLsbD 0))
  else if r.opsel = 0x4#4 then
    .ok (.opDisplayControl (r.flags.getLsbD 2) (r.flags.getLsbD 1) (r.flags.getLsbD 0))
  else if r.opsel = 0x5#4 then
    if r.stream.length = r.len then .ok (.opWrite r.line r.column r.stream) else .error .streamLength
  else if r.opsel = 0x6#4 then .ok (.opRead r.line r.column r.len)
  else if r.opsel = 0x7#4 then
    if r.stream.length = r.blen.toNat then .ok (.opDefineChar r.code r.stream) else .error .streamLength
  else .ok (.opReserved (r.opsel.extractLsb' 0 3))

/-- The instruction on a wire. -/
def decode : Wire → Except Reject Instr
  | .cmd b => decodeCmd b
  | .data b => .ok (.data b)
  | .nibble n => decodeNibble n
  | .status b => .ok (decodeStatus b)
  | .request r => decodeRequest r

-- The encoder

/-- The wire of an instruction; the internal transactions "have no encoding of their own" (30_encoding.md). -/
def encode : Instr → Option Wire
  | .cmdClear => some (.cmd clearByte)
  | .cmdHome => some (.cmd homeByte)
  | .cmdEntryMode l s => some (.cmd (entryModeByte l s))
  | .cmdDisplayControl d c b => some (.cmd (displayControlByte d c b))
  | .cmdFunctionSet => some (.cmd Config.functionSetByte)
  | .cmdSetCgram a => some (.cmd (setCgramByte a))
  | .cmdSetDdram a => some (.cmd (setDdramByte a))
  | .data b => some (.data b)
  | .initNibble3 => some (.nibble 0x3#4)
  | .initNibble2 => some (.nibble 0x2#4)
  | .status busy ignored => some (.status (BitVec.ofBool busy ++ ignored))
  | .opInit => some (.request initRequest)
  | .opClear => some (.request clearRequest)
  | .opHome => some (.request homeRequest)
  | .opEntryMode l s => some (.request (entryModeRequest l s))
  | .opDisplayControl d c b => some (.request (displayControlRequest d c b))
  | .opWrite line column bytes => some (.request (writeRequest line column bytes))
  | .opRead line column length => some (.request (readRequest line column length))
  | .opDefineChar code bitmap => some (.request (defineCharRequest code bitmap))
  | .opReserved low => some (.request (reservedRequest low))
  | .write4 _ _ | .read4 _ | .write8 _ _ | .read8 _ => none
  | .doCmd _ | .doData _ | .readData => none
  | .policyWait | .busyWait | .delay _ => none

-- The opcode table's words

/-- The bits the opcode table numbers for a wire: the byte, the nibble, or the selector. -/
def wireWord : Wire → Byte
  | .cmd b | .data b | .status b => b
  | .nibble n => n.setWidth 8
  | .request r => r.opsel.setWidth 8

/-- `match` and `mask` of an instruction's row of spec/opcode_table.json; none for an INTERNAL row. -/
def rowPattern : Instr → Option (Byte × Byte)
  | .cmdClear => some (0x01#8, 0xFF#8)
  | .cmdHome => some (0x02#8, 0xFF#8)
  | .cmdEntryMode _ _ => some (0x04#8, 0xFC#8)
  | .cmdDisplayControl _ _ _ => some (0x08#8, 0xF8#8)
  | .cmdFunctionSet => some (0x28#8, 0xFF#8)
  | .cmdSetCgram _ => some (0x40#8, 0xC0#8)
  | .cmdSetDdram _ => some (0x80#8, 0x80#8)
  | .data _ => some (0x00#8, 0x00#8)
  | .initNibble3 => some (0x03#8, 0x0F#8)
  | .initNibble2 => some (0x02#8, 0x0F#8)
  | .status _ _ => some (0x00#8, 0x00#8)
  | .opInit => some (0x00#8, 0x0F#8)
  | .opClear => some (0x01#8, 0x0F#8)
  | .opHome => some (0x02#8, 0x0F#8)
  | .opEntryMode _ _ => some (0x03#8, 0x0F#8)
  | .opDisplayControl _ _ _ => some (0x04#8, 0x0F#8)
  | .opWrite _ _ _ => some (0x05#8, 0x0F#8)
  | .opRead _ _ _ => some (0x06#8, 0x0F#8)
  | .opDefineChar _ _ => some (0x07#8, 0x0F#8)
  | .opReserved _ => some (0x08#8, 0x08#8)
  | .write4 _ _ | .read4 _ | .write8 _ _ | .read8 _ => none
  | .doCmd _ | .doData _ | .readData => none
  | .policyWait | .busyWait | .delay _ => none

/-- The wire a word of the table stands on when nothing but the word is known. The table's formats overlap, because
on the hardware a word's format is its position. DESIGN CHOICE (log 20): a word of four bits is the selector of a
request, all operand ports zero; a larger byte is a command byte. -/
def tableWire (nbits w : Nat) : Option Wire :=
  if nbits = 0 then none
  else if w < 16 then some (.request { opsel := BitVec.ofNat 4 w })
  else if w < 256 then some (.cmd (BitVec.ofNat 8 w))
  else none

/-- The instruction the decoder reads from a word of the opcode table. -/
def decodeTableWord (nbits w : Nat) : Option Instr :=
  match tableWire nbits w with
  | none => none
  | some wire => (decode wire).toOption

end Sys2Proof
end

