-- ==== Sys2Proof/Machine/State.lean ====
section
/-! DEFINITION. The state of the engine and of the channels it meets (10_state.md), the reasons a step can stop, and reset. -/

namespace Sys2Proof.Machine

open Sys2Proof

/-- `PHASE`: which nibble of a pair is in progress (R25). -/
inductive Phase where
  | hi
  | lo
  deriving DecidableEq, Repr

/-- The five completion statuses (R180; "a model's status type has five values", U8). -/
inductive Status where
  | ok
  | invalidArgument
  | transportFailure
  | unsupported
  | cancelled
  deriving DecidableEq, Repr

/-- The transport's own failure report, "handed to the host with the status, unchanged and uninterpreted" (R182).
DESIGN CHOICE (log 24, safe): a report is a number nothing looks into. -/
abbrev Report := Nat

/-- An event of the trace (R8); `sendFailed bs` and `recvFailed` are `Send(bs)!` and `Recv!` (R182). -/
inductive Event where
  | send (bs : BusState)
  | recv (v : Byte)
  | delay (n : Nat)
  | sendFailed (bs : BusState)
  | recvFailed
  deriving DecidableEq, Repr

/-- A response: the completion status, the bytes of a `READ`, and the transport's report (R10, R180, R182). -/
structure Response where
  status : Status
  data   : List Byte
  report : Option Report
  deriving DecidableEq, Repr

/-- What the host does at one step: asserts reset with a configuration to sample (R210), raises `cancel` (R184),
presents a request (R10). -/
structure HostInput where
  reset   : Option Config := none
  cancel  : Bool := false
  present : Option Request := none
  deriving DecidableEq, Repr

/-- A position of the sequencer: `SEQ` is the list of these still to be done (R26: "a model may represent `SEQ` as
the list of events still to be issued (a continuation)"). -/
inductive Micro where
  /-- run an instruction; no cancellation point stands before it. -/
  | run (i : Instr)
  /-- begin a unit of R186 (a `write8`, a `read8`, a stand-alone `write4`, or a delay outside the codec): a
  cancellation point stands before it. -/
  | unit (i : Instr)
  /-- the transport's `send` (R7; `W_SETUP`, `W_EHI`, `W_ELO`, `W_REL`, `R_SETUP`, `R_EHI`, `R_ELO` of R107). -/
  | send (bs : BusState)
  /-- the transport's `recv` (R7; `R_SAMPLE` of R107). -/
  | recv
  /-- `PHASE <- LO`, then the low nibble of a `write8` (R102, R107). -/
  | writeLow (rs : Bool)
  /-- `PHASE <- LO`, then the low nibble of a `read8` (R103, R107). -/
  | readLow (rs : Bool)
  /-- `BW_TEST`: the status byte in `BYTE` is read (R136). -/
  | statusTest
  /-- `v <- read8(DR)` of `readData`: the value is held over the busy-wait (R122). -/
  | keepRead
  /-- the data phase begins: `IDX <- 0`, `RBUF <- []` (R27, R165). -/
  | startData
  /-- the loop head of `WRITE`, `READ`, `DEFINE_CHAR` (R164 to R166). -/
  | dataLoop
  /-- after a `doData` of the loop: `IDX` counts (R27). -/
  | byteSent
  /-- after a `readData` of the loop: `RBUF <- RBUF ++ [v]`, `IDX` counts (R27, R165). -/
  | byteRead
  /-- the rule ran to its end: `STATUS <- OK` (R180). -/
  | finish
  deriving DecidableEq, Repr

/-- The machine stops with a fault in no case: `InvalidArgument`, `TransportFailure`, `Unsupported` and `Cancelled`
end an operation and leave the engine idle (R190, R193), so each is a next state, and the unbounded wait "is an
infinite execution, not a fault" (R188). -/
inductive Fault where
  deriving DecidableEq, Repr

/-- Why a step has no meaning. -/
inductive Refusal where
  /-- an instruction without a meaning yet; raised by an arm of `exec` only. Safe: the run stops. -/
  | notModelled (mnemonic : String)
  /-- the request presented at the ports is no request (its stream does not have the length of its length port);
  raised by the acceptance of a request. U3: "not expressible at the engine's ports". Safe (log 17). -/
  | malformedRequest (why : Reject)
  /-- an operand beyond its port or `LEN_MAX`; raised by the acceptance of a request. U3. Safe (log 17). -/
  | operandOutOfRange
  /-- a primitive that "does not exist" when `VARIANT = FD` (R101, R131); raised by the meanings of `read4`, `read8`,
  `readData`, `busyWait`, `STATUS` and by `recv`. Safe (log 18): no rule of an FD engine comes here. -/
  | absentInFd (what : String)
  deriving DecidableEq, Repr

/-- The state. The first group is the engine's (10_state.md), the second the channels of the host interface (R10) and
the trace (R8), the third the model's own: what the outside world will do, and the counter of the free values. -/
structure State where
  /-- `VARIANT` and the parameters of R5, sampled at reset (R23, R210). -/
  cfg : Config
  /-- `BUS` (R20); `DOE` and `D` are `bus.d` (log 10). -/
  bus : BusState
  /-- `SEQ` (R26); `[]` is `IDLE`. -/
  seq : List Micro
  /-- `OP` (R24). -/
  op : BitVec 4
  /-- `A_LINE` (R24). -/
  aLine : BitVec 1
  /-- `A_COL` (R24). -/
  aCol : BitVec 6
  /-- `A_FLAGS` (R24). -/
  aFlags : BitVec 3
  /-- `A_CODE` (R24). -/
  aCode : BitVec 4
  /-- `A_LEN` (R24). -/
  aLen : Nat
  /-- `BYTE` (R25). -/
  byte : Byte
  /-- `PHASE` (R25). -/
  phase : Phase
  /-- `IDX` (R27). -/
  idx : Nat
  /-- `TMR` (R28). -/
  tmr : Nat
  /-- `BF` (R29). -/
  bf : Bool
  /-- `STATUS` (R30). -/
  status : Status
  /-- `CANCEL_PEND` (R31). -/
  cancelPend : Bool
  /-- `RBUF` (R32). -/
  rbuf : List Byte
  /-- the value `readData` holds over its busy-wait (R122; log 12). -/
  rdata : Byte
  /-- the request the request channel presents (R10, R33). -/
  req : Option Request
  /-- the byte operand of the accepted request, "held by the host side of the request channel" (R24). -/
  aBytes : List Byte
  /-- the responses delivered so far (R10, R180). -/
  responses : List Response
  /-- the events issued since reset (R8). -/
  trace : List Event
  /-- the host's acts, one per step; when the list is used up the host does nothing (log 2). -/
  host : List HostInput
  /-- the completion codes of the coming `send` and `recv` calls; when the list is used up they succeed (log 3). -/
  link : List (Option Report)
  /-- the bytes the coming `recv` calls return; when the list is used up they are free values (log 4). -/
  rx : List Byte
  /-- how many free values have been drawn (log 4, log 5). -/
  draws : Nat
  deriving DecidableEq, Repr

/-- `BUS` after reset: Enable low, data lines released, `rs = 0`, `rw = 0` where it exists (R37). -/
def resetBus (cfg : Config) : BusState where
  rs := false
  rw := match cfg.variant with
    | .bf => some false
    | .fd => none
  e := false
  d := none

/-- The state right after a reset that samples `cfg` (R37, R210). `OP`, the operand latches, `BYTE`, `PHASE`, `IDX`
and `BF` are unspecified there: DESIGN CHOICE zero (log 9, unsafe). -/
def State.resetWith (cfg : Config) : State where
  cfg := cfg
  bus := resetBus cfg
  seq := []
  op := 0#4
  aLine := 0#1
  aCol := 0#6
  aFlags := 0#3
  aCode := 0#4
  aLen := 0
  byte := 0#8
  phase := .hi
  idx := 0
  tmr := 0
  bf := false
  status := .ok
  cancelPend := false
  rbuf := []
  rdata := 0#8
  req := none
  aBytes := []
  responses := []
  trace := []
  host := []
  link := []
  rx := []
  draws := 0

/-- The state right after reset, for the session of `Config.session` (log 6, log 19). -/
def State.reset : State := State.resetWith Config.session

end Sys2Proof.Machine
end

