-- ==== Sys2Proof/Machine/Flags.lean ====
section
/-! DEFINITION. The one condition flag (10_state.md R29) and the status code (60_exceptions.md R180). -/

namespace Sys2Proof.Machine

open Sys2Proof

/-- `BF <- v[7]` (R29, R132). -/
def busyFlag (v : Byte) : Bool := v.getLsbD 7

/-- The 3-bit code of a status (R180). -/
def statusCode : Status → BitVec 3
  | .ok => 0#3
  | .invalidArgument => 1#3
  | .transportFailure => 2#3
  | .unsupported => 3#3
  | .cancelled => 4#3

end Sys2Proof.Machine
end

