-- ==== Sys2Proof/Machine/Operands.lean ====
section
/-! DEFINITION. The operand arithmetic of the operations (30_encoding.md sections 1 and 4, 44_high_level_ops.md R168). -/

namespace Sys2Proof.Machine

open Sys2Proof

/-- `IR` is the constant false, `DR` the constant true, as a register select (00_scope.md section 5). -/
abbrev IR : Bool := false
abbrev DR : Bool := true

/-- The `rw` field of a BusState: there in BF, absent in FD (R70, R71). -/
def rwField (v : Variant) (rw : Bool) : Option Bool :=
  match v with
  | .bf => some rw
  | .fd => none

/-- High nibble `b[7:4]` (R87). -/
def hiNibble (b : Byte) : Nibble := b.extractLsb' 4 4

/-- Low nibble `b[3:0]` (R87). -/
def loNibble (b : Byte) : Nibble := b.extractLsb' 0 4

/-- The nibble of a received byte, `v[3:0]`; bits 7:4 are ignored (R73). -/
def recvNibble (v : Byte) : Nibble := v.extractLsb' 0 4

/-- `(zext_8(hi) << 4) | zext_8(lo)` (R87, R103). -/
def joinNibbles (hi lo : Nibble) : Byte := (hi.setWidth 8 <<< 4) ||| lo.setWidth 8

/-- DDRAM address `column + line × 0x40` (R85). -/
def ddramAddress (line : BitVec 1) (column : BitVec 6) : BitVec 7 :=
  BitVec.ofNat 7 (column.toNat + line.toNat * 0x40)

/-- CGRAM address `code × 8` (R86). -/
def cgramAddress (code : BitVec 4) : BitVec 6 := BitVec.ofNat 6 (code.toNat * 8)

/-- The count `delay(n)` loads into `TMR`: `ceil(n / TICK_NS)` (R138). -/
def ticksFor (cfg : Config) (n : Nat) : Nat := (n + (cfg.tickNs - 1)) / cfg.tickNs

/-- `TMR_WIDTH`: the smallest `w` with `2^w > ceil(max delay / TICK_NS)` (R5, R140). -/
def timerWidth (cfg : Config) : Nat :=
  if ticksFor cfg cfg.maxDelay = 0 then 0 else Nat.log2 (ticksFor cfg cfg.maxDelay) + 1

/-- `DOE` of R20 and R72: 1 when a value is driven. -/
def dataOutputEnable (bs : BusState) : Bool := bs.d.isSome

/-- A BusState made to have a `rw` field exactly when the variant has one (R20, R71). -/
def fitVariant (v : Variant) (bs : BusState) : BusState := { bs with rw := rwField v (bs.rw.getD false) }

end Sys2Proof.Machine
end

