-- ==== Sys2Proof/Machine/Ops.lean ====
section
/-! DEFINITION. The named operations over the state: the sequencer's list, the transport's three primitives, the timer, the request latches, fault entry and completion. -/

namespace Sys2Proof.Machine

open Sys2Proof

/-- An operation is in progress: `SEQ` is not `IDLE` (R26, R33). -/
def State.busy (s : State) : Bool := !s.seq.isEmpty

/-- The sequencer goes on with `ms` before what stands in `SEQ` (R26). -/
def State.push (ms : List Micro) (s : State) : State := { s with seq := ms ++ s.seq }

/-- `SEQ <- ms` (R26). -/
def State.goto (ms : List Micro) (s : State) : State := { s with seq := ms }

-- Fault entry and completion

/-- FAULT ENTRY, `raise E(info)` (R190): `STATUS <- code(E)`, `CANCEL_PEND <- 0`, `SEQ <- IDLE`, the response is
delivered; nothing is saved and `BUS` is not touched. A response that is not `OK` carries no data, and `RBUF` is
discarded (R187, U12; log 13). There is no return from a fault (R193). -/
def State.raise (e : Status) (report : Option Report) (s : State) : State :=
  { s with
    status := e
    cancelPend := false
    seq := []
    rbuf := []
    responses := s.responses ++ [{ status := e, data := [], report := report }] }

/-- What a response carries: only `READ` returns data (R171, R203). -/
def State.result (s : State) : List Byte := if s.op = 0x6#4 then s.rbuf else []

/-- Completion (R180, R186): `STATUS <- OK`, a cancel still pending is dropped, `SEQ <- IDLE`, the response. -/
def State.complete (s : State) : State :=
  { s with
    status := .ok
    cancelPend := false
    seq := []
    responses := s.responses ++ [{ status := .ok, data := s.result, report := none }] }

/-- TAKING A CANCEL (R187): no further event, `STATUS <- Cancelled`, `CANCEL_PEND <- 0`, `SEQ <- IDLE`, no data. -/
def State.takeCancel (s : State) : State := s.raise .cancelled none

-- The transport's primitives (R7)

/-- The completion code of the next `send` or `recv`; a call beyond the list succeeds (log 3). -/
def State.linkCode (s : State) : Option Report := s.link.headD none

/-- `send(bs)` that completes: the event, and `BUS` takes every field of `bs` (R7, R21). -/
def State.sendOk (bs : BusState) (s : State) : State :=
  { s with trace := s.trace ++ [.send bs], bus := bs, link := s.link.tail }

/-- `send(bs)` that fails (R182): `Send(bs)!` is the last event, `BUS` becomes a free value (U5, log 5), and
`TransportFailure` is raised with the transport's report. -/
def State.sendFail (bs : BusState) (r : Report) (s : State) : State :=
  State.raise .transportFailure (some r)
    { s with
      trace := s.trace ++ [.sendFailed bs]
      bus := fitVariant s.cfg.variant (Config.busAfterFailure s.draws)
      link := s.link.tail
      draws := s.draws + 1 }

/-- The transport's `send` (R7, R182). -/
def State.send (bs : BusState) (s : State) : State :=
  match s.linkCode with
  | none => s.sendOk bs
  | some r => s.sendFail bs r

/-- The byte the next `recv` returns: the controller's next answer, or a free value (R34; log 4). -/
def State.answer (s : State) : Byte := s.rx.headD (Config.recvDraw s.draws)

/-- The counter of the free values after the next `recv`. -/
def State.drawsAfterAnswer (s : State) : Nat := if s.rx.isEmpty then s.draws + 1 else s.draws

/-- `BYTE` after a nibble is read: the nibble named by `PHASE` is filled (R25, R103; log 12). -/
def collectNibble (p : Phase) (byte : Byte) (n : Nibble) : Byte :=
  match p with
  | .hi => joinNibbles n 0#4
  | .lo => joinNibbles (hiNibble byte) n

/-- `recv()` that completes: the event `Recv(v)`, and `v[3:0]` goes to `BYTE` (R7, R101, R103). -/
def State.recvOk (s : State) : State :=
  { s with
    trace := s.trace ++ [.recv s.answer]
    byte := collectNibble s.phase s.byte (recvNibble s.answer)
    link := s.link.tail
    rx := s.rx.tail
    draws := s.drawsAfterAnswer }

/-- `recv()` that fails (R182): `Recv!` is the last event; no send failed, so `BUS` stays. -/
def State.recvFail (r : Report) (s : State) : State :=
  State.raise .transportFailure (some r)
    { s with trace := s.trace ++ [.recvFailed], link := s.link.tail }

/-- The transport's `recv` (R7, R182). -/
def State.recv (s : State) : State :=
  match s.linkCode with
  | none => s.recvOk
  | some r => s.recvFail r

/-- `delay(n)`: the event, and `TMR <- ceil(n / TICK_NS)` (R138). -/
def State.startDelay (n : Nat) (s : State) : State :=
  { s with trace := s.trace ++ [.delay n], tmr := ticksFor s.cfg n }

/-- One tick of a running timer (R138). -/
def State.tick (s : State) : State := { s with tmr := s.tmr - 1 }

-- The request latches (R24)

/-- The operand latches loaded from a request's ports (R24); `A_LEN` is the length port of the operation. -/
def State.latch (r : Request) (s : State) : State :=
  { s with
    op := r.opsel
    aLine := r.line
    aCol := r.column
    aFlags := r.flags
    aCode := r.code
    aLen := if r.opsel = 0x7#4 then r.blen.toNat else r.len
    aBytes := r.stream
    rbuf := [] }

/-- The operation's rule begins: `SEQ` is its step list, with completion at its end. -/
def State.begin (steps : List Micro) (s : State) : State := s.goto (steps ++ [.finish])

/-- The shape of every host operation (R10, R33, R191): a request presented to a busy engine is not accepted and has
no effect; an accepted one is latched, its argument check comes before any event, then its step list begins. -/
def State.startOperation (r : Request) (check : State → Option Status) (steps : State → List Micro) (s : State) : State :=
  if s.busy then s
  else
    match check (s.latch r) with
    | some e => (s.latch r).raise e none
    | none => (s.latch r).begin (steps (s.latch r))

/-- No argument check: most operations have no fault of their own. -/
def noCheck (_ : State) : Option Status := none

/-- The end of the data loop: 8 for `DEFINE_CHAR`, else `A_LEN` (R27). -/
def State.dataEnd (s : State) : Nat := if s.op = 0x7#4 then 8 else s.aLen

/-- The state after a reset in the middle of a run (R210, R211): every piece of the engine's state at its reset value,
the configuration sampled, no event, no response. The world outside keeps what it will do (log 21). -/
def State.restart (cfg : Config) (s : State) : State :=
  { State.resetWith cfg with
    responses := s.responses
    host := s.host
    link := s.link
    rx := s.rx
    draws := s.draws }

end Sys2Proof.Machine
end

