-- ==== Sys2Proof/Machine/Codec.lean ====
section
/-! DEFINITION. The NibbleCodec: write4, read4, write8, read8 (40_nibble_codec.md). -/

namespace Sys2Proof.Machine

open Sys2Proof

/-- A BusState of a write transaction (R100): `rw` is 0 where it exists. -/
def writeBus (v : Variant) (rs e : Bool) (d : Option Nibble) : BusState := ⟨rs, rwField v false, e, d⟩

/-- A BusState of a read transaction (R101): `rw` is 1, the data lines released. -/
def readBus (v : Variant) (rs e : Bool) : BusState := ⟨rs, rwField v true, e, none⟩

/-- The seven events of `write4(rs, n)` (R100); the delays stand inside the codec, so none is a unit (R186). -/
def write4Steps (cfg : Config) (rs : Bool) (n : Nibble) : List Micro :=
  [ .send (writeBus cfg.variant rs false (some n)),
    .run (.delay cfg.tAS),
    .send (writeBus cfg.variant rs true (some n)),
    .run (.delay cfg.tPW),
    .send (writeBus cfg.variant rs false (some n)),
    .run (.delay cfg.tCYCR),
    .send (writeBus cfg.variant rs false none) ]

/-- The eight events of `read4(rs)` (R101). -/
def read4Steps (cfg : Config) (rs : Bool) : List Micro :=
  [ .send (readBus cfg.variant rs false),
    .run (.delay cfg.tAS),
    .send (readBus cfg.variant rs true),
    .run (.delay cfg.tDDR),
    .recv,
    .run (.delay cfg.tRDH),
    .send (readBus cfg.variant rs false),
    .run (.delay cfg.tCYCR) ]

/-- What exists only in the BF variant (R101, R131): in FD it "does not exist". -/
def bfOnly (what : String) (s : State) (f : State → State) : Host.Outcome State Fault Refusal :=
  match s.cfg.variant with
  | .bf => .next (f s)
  | .fd => .refused (.absentInFd what)

/-- `write4(rs, n)` (R100). -/
def execWrite4 (rs : Bool) (n : Nibble) (s : State) : Host.Outcome State Fault Refusal :=
  .next (s.push (write4Steps s.cfg rs n))

/-- `read4(rs)` (R101). -/
def execRead4 (rs : Bool) (s : State) : Host.Outcome State Fault Refusal :=
  bfOnly "read4" s fun s => s.push (read4Steps s.cfg rs)

/-- `write8(rs, b)` (R102): `BYTE <- b; PHASE <- HI`, the high nibble, then `PHASE <- LO` and the low nibble. -/
def execWrite8 (rs : Bool) (b : Byte) (s : State) : Host.Outcome State Fault Refusal :=
  .next (State.push [.run (.write4 rs (hiNibble b)), .writeLow rs] { s with byte := b, phase := .hi })

/-- `read8(rs)` (R103): `PHASE <- HI`, the high nibble, then `PHASE <- LO` and the low nibble, collected in `BYTE`. -/
def execRead8 (rs : Bool) (s : State) : Host.Outcome State Fault Refusal :=
  bfOnly "read8" s fun s => State.push [.run (.read4 rs), .readLow rs] { s with phase := .hi }

end Sys2Proof.Machine
end

