-- ==== Sys2Proof/Machine/Timing.lean ====
section
/-! DEFINITION. The TimingPolicy: the policy wait, the busy-flag polling machine, the fixed-delay timer (42_timing_policy.md). -/

namespace Sys2Proof.Machine

open Sys2Proof

/-- `delay(n)` (R138): the event `Delay(n)`, and the timer is loaded; the ticks that follow are steps of their own. -/
def execDelay (n : Nat) (s : State) : Host.Outcome State Fault Refusal := .next (s.startDelay n)

/-- `policyWait()` (R130): `busyWait()` in BF, `delay(T_EXEC)` in FD, where the delay is a unit (R186). -/
def execPolicyWait (s : State) : Host.Outcome State Fault Refusal :=
  match s.cfg.variant with
  | .bf => .next (s.push [.run .busyWait])
  | .fd => .next (s.push [.unit (.delay s.cfg.tEXEC)])

/-- `busyWait()` (R132, R136): `BW_READ`, a whole `read8(IR)`, then `BW_TEST`. -/
def execBusyWait (s : State) : Host.Outcome State Fault Refusal :=
  bfOnly "busyWait" s fun s => s.push [.unit (.read8 IR), .statusTest]

/-- The status byte of a poll (R74, R132): `BF <- v[7]`; while it is 1 the loop polls again, with no timeout (R134);
bits 6:0 are not used. -/
def execStatus (busy : Bool) (_ignored : BitVec 7) (s : State) : Host.Outcome State Fault Refusal :=
  bfOnly "STATUS" s fun s =>
    match busy with
    | true => State.push [.run .busyWait] { s with bf := true }
    | false => { s with bf := false }

end Sys2Proof.Machine
end

