-- ==== Sys2Proof/Machine/Commands.lean ====
section
/-! DEFINITION. The CommandSequencer: doCmd, doData, readData (41_command_sequencer.md), and the bytes and nibbles it issues (30_encoding.md sections 2 and 3). -/

namespace Sys2Proof.Machine

open Sys2Proof

/-- `X_WR`, `X_WAIT` of R125: a `write8(rs, b)`, then the policy wait. -/
def transactionSteps (rs : Bool) (b : Byte) : List Micro := [.unit (.write8 rs b), .run .policyWait]

/-- `doCmd(b)` (R120). -/
def execDoCmd (b : Byte) (s : State) : Host.Outcome State Fault Refusal := .next (s.push (transactionSteps IR b))

/-- `doData(b)` (R121). -/
def execDoData (b : Byte) (s : State) : Host.Outcome State Fault Refusal := .next (s.push (transactionSteps DR b))

/-- `readData()` (R122): `X_RD`, then `X_BW`; the value read is held over the busy-wait. -/
def execReadData (s : State) : Host.Outcome State Fault Refusal :=
  bfOnly "readData" s fun s => s.push [.unit (.read8 DR), .keepRead, .run .busyWait]

/-- A command byte is "written to the instruction register by `doCmd(b)`" (R75). What the controller does with it
lives in the controller (R35; log 22). -/
def issueCommand (b : Byte) (s : State) : State := s.push [.run (.doCmd b)]

/-- A single nibble of `INIT`: a stand-alone `write4(IR, n)`, a unit of its own (R83, R185). -/
def issueNibble (n : Nibble) (s : State) : State := s.push [.unit (.write4 IR n)]

/-- `CLEAR`, byte 0x01 (R76). -/
def execCmdClear (s : State) : Host.Outcome State Fault Refusal := .next (issueCommand clearByte s)

/-- `HOME`, byte 0x02 (R77). -/
def execCmdHome (s : State) : Host.Outcome State Fault Refusal := .next (issueCommand homeByte s)

/-- `ENTRY_MODE` (R78): two independent bits. -/
def execCmdEntryMode (leftToRight shift : Bool) (s : State) : Host.Outcome State Fault Refusal :=
  .next (issueCommand (entryModeByte leftToRight shift) s)

/-- `DISPLAY_CONTROL` (R79). -/
def execCmdDisplayControl (displayOn cursorOn blinkOn : Bool) (s : State) : Host.Outcome State Fault Refusal :=
  .next (issueCommand (displayControlByte displayOn cursorOn blinkOn) s)

/-- `FUNCTION_SET` (R82). -/
def execCmdFunctionSet (s : State) : Host.Outcome State Fault Refusal :=
  .next (issueCommand Config.functionSetByte s)

/-- `SET_CGRAM` (R80). -/
def execCmdSetCgram (a : BitVec 6) (s : State) : Host.Outcome State Fault Refusal :=
  .next (issueCommand (setCgramByte a) s)

/-- `SET_DDRAM` (R81). -/
def execCmdSetDdram (a : BitVec 7) (s : State) : Host.Outcome State Fault Refusal :=
  .next (issueCommand (setDdramByte a) s)

/-- `DATA` (R84): "8 bits written to the data register by `doData`, with no structure the engine looks at". -/
def execData (b : Byte) (s : State) : Host.Outcome State Fault Refusal := .next (s.push [.run (.doData b)])

/-- `write4(IR, 0x3)` of `INIT` steps 1 to 3 (R83). -/
def execInitNibble3 (s : State) : Host.Outcome State Fault Refusal := .next (issueNibble 0x3#4 s)

/-- `write4(IR, 0x2)` of `INIT` step 4 (R83). -/
def execInitNibble2 (s : State) : Host.Outcome State Fault Refusal := .next (issueNibble 0x2#4 s)

end Sys2Proof.Machine
end

