-- ==== Sys2Proof/Machine/HostOps.lean ====
section
/-! DEFINITION. The host operations: INIT (43_init_sequence.md), CLEAR, HOME, ENTRY_MODE, DISPLAY_CONTROL, WRITE, READ, DEFINE_CHAR (44_high_level_ops.md) and the reserved selectors (R89). -/

namespace Sys2Proof.Machine

open Sys2Proof

/-- `clear()` (R160): `doCmd(0x01)`, in FD followed by the unit `delay(T_CLEAR)`. -/
def clearSteps (cfg : Config) : List Micro :=
  match cfg.variant with
  | .bf => [.run .cmdClear]
  | .fd => [.run .cmdClear, .unit (.delay cfg.tCLEAR)]

/-- The nine steps of `INIT` (R150). -/
def initSteps (cfg : Config) : List Micro :=
  [ .run .initNibble3, .unit (.delay cfg.tINIT1),
    .run .initNibble3, .unit (.delay cfg.tINIT2),
    .run .initNibble3, .unit (.delay cfg.tINIT3),
    .run .initNibble2,
    .run .policyWait,
    .run .cmdFunctionSet,
    .run (.cmdDisplayControl false false false) ] ++
  clearSteps cfg ++
  [ .run (.cmdEntryMode true false),
    .run (.cmdDisplayControl true false false) ]

/-- The address-set command from the latches (R85), then the data phase (R164, R165, R169). -/
def positionedSteps (s : State) : List Micro :=
  [.run (.cmdSetDdram (ddramAddress s.aLine s.aCol)), .startData, .dataLoop]

/-- The glyph-address command from the latch (R86), then the data phase (R166). -/
def glyphSteps (s : State) : List Micro :=
  [.run (.cmdSetCgram (cgramAddress s.aCode)), .startData, .dataLoop]

/-- `InvalidArgument` of `DEFINE_CHAR`: `code > 7` or `len(bitmap) != 8` (R166, R181). -/
def glyphCheck (s : State) : Option Status :=
  if 7 < s.aCode.toNat ∨ s.aBytes.length ≠ 8 then some .invalidArgument else none

/-- `Unsupported` of `READ` in the FD variant (R170, R183). -/
def readCheck (s : State) : Option Status :=
  match s.cfg.variant with
  | .bf => none
  | .fd => some .unsupported

/-- `INIT` (R150). -/
def execOpInit (s : State) : Host.Outcome State Fault Refusal :=
  .next (s.startOperation initRequest noCheck fun t => initSteps t.cfg)

/-- `CLEAR` (R160). -/
def execOpClear (s : State) : Host.Outcome State Fault Refusal :=
  .next (s.startOperation clearRequest noCheck fun t => clearSteps t.cfg)

/-- `HOME` (R161): the plain command, no extended delay in either variant. -/
def execOpHome (s : State) : Host.Outcome State Fault Refusal :=
  .next (s.startOperation homeRequest noCheck fun _ => [.run .cmdHome])

/-- `ENTRY_MODE` (R163): the command byte from the latched flags. -/
def execOpEntryMode (leftToRight shift : Bool) (s : State) : Host.Outcome State Fault Refusal :=
  .next (s.startOperation (entryModeRequest leftToRight shift) noCheck fun t =>
    [.run (.cmdEntryMode (t.aFlags.getLsbD 1) (t.aFlags.getLsbD 0))])

/-- `DISPLAY_CONTROL` (R162): the command byte from the latched flags. -/
def execOpDisplayControl (displayOn cursorOn blinkOn : Bool) (s : State) : Host.Outcome State Fault Refusal :=
  .next (s.startOperation (displayControlRequest displayOn cursorOn blinkOn) noCheck fun t =>
    [.run (.cmdDisplayControl (t.aFlags.getLsbD 2) (t.aFlags.getLsbD 1) (t.aFlags.getLsbD 0))])

/-- `WRITE` (R164). -/
def execOpWrite (line : BitVec 1) (column : BitVec 6) (bytes : List Byte) (s : State) :
    Host.Outcome State Fault Refusal :=
  .next (s.startOperation (writeRequest line column bytes) noCheck positionedSteps)

/-- `READ` (R165, R170). -/
def execOpRead (line : BitVec 1) (column : BitVec 6) (length : Nat) (s : State) :
    Host.Outcome State Fault Refusal :=
  .next (s.startOperation (readRequest line column length) readCheck positionedSteps)

/-- `DEFINE_CHAR` (R166). -/
def execOpDefineChar (code : BitVec 4) (bitmap : List Byte) (s : State) : Host.Outcome State Fault Refusal :=
  .next (s.startOperation (defineCharRequest code bitmap) glyphCheck glyphSteps)

/-- Reserved selectors (R89): refused with `InvalidArgument`, no bus event. -/
def execOpReserved (low : BitVec 3) (s : State) : Host.Outcome State Fault Refusal :=
  .next (s.startOperation (reservedRequest low) (fun _ => some .invalidArgument) fun _ => [])

end Sys2Proof.Machine
end

