-- ==== Sys2Proof/Machine/Dispatch.lean ====
section
/-! DEFINITION. The dispatch: one arm per constructor of Instr, each a direct call of its meaning. -/

namespace Sys2Proof.Machine

open Sys2Proof

-- The meaning of an instruction; s.seq is the sequencer's list that stands after it.
def exec (i : Instr) (s : State) : Host.Outcome State Fault Refusal :=
  match i with
  -- CMD8
  | .cmdClear => Sys2Proof.Machine.execCmdClear s
  | .cmdHome => Sys2Proof.Machine.execCmdHome s
  | .cmdEntryMode l r => Sys2Proof.Machine.execCmdEntryMode l r s
  | .cmdDisplayControl d c b => Sys2Proof.Machine.execCmdDisplayControl d c b s
  | .cmdFunctionSet => Sys2Proof.Machine.execCmdFunctionSet s
  | .cmdSetCgram a => Sys2Proof.Machine.execCmdSetCgram a s
  | .cmdSetDdram a => Sys2Proof.Machine.execCmdSetDdram a s
  -- DATA8, NIB4, STATUS-READ
  | .data b => Sys2Proof.Machine.execData b s
  | .initNibble3 => Sys2Proof.Machine.execInitNibble3 s
  | .initNibble2 => Sys2Proof.Machine.execInitNibble2 s
  | .status busy ignored => Sys2Proof.Machine.execStatus busy ignored s
  -- HOSTOP
  | .opInit => Sys2Proof.Machine.execOpInit s
  | .opClear => Sys2Proof.Machine.execOpClear s
  | .opHome => Sys2Proof.Machine.execOpHome s
  | .opEntryMode l r => Sys2Proof.Machine.execOpEntryMode l r s
  | .opDisplayControl d c b => Sys2Proof.Machine.execOpDisplayControl d c b s
  | .opWrite line column bytes => Sys2Proof.Machine.execOpWrite line column bytes s
  | .opRead line column length => Sys2Proof.Machine.execOpRead line column length s
  | .opDefineChar code bitmap => Sys2Proof.Machine.execOpDefineChar code bitmap s
  | .opReserved low => Sys2Proof.Machine.execOpReserved low s
  -- INTERNAL
  | .write4 rs n => Sys2Proof.Machine.execWrite4 rs n s
  | .read4 rs => Sys2Proof.Machine.execRead4 rs s
  | .write8 rs b => Sys2Proof.Machine.execWrite8 rs b s
  | .read8 rs => Sys2Proof.Machine.execRead8 rs s
  | .doCmd b => Sys2Proof.Machine.execDoCmd b s
  | .doData b => Sys2Proof.Machine.execDoData b s
  | .readData => Sys2Proof.Machine.execReadData s
  | .policyWait => Sys2Proof.Machine.execPolicyWait s
  | .busyWait => Sys2Proof.Machine.execBusyWait s
  | .delay n => Sys2Proof.Machine.execDelay n s

end Sys2Proof.Machine
end

