-- ==== Sys2Proof/Machine/Sequencer.lean ====
section
/-! DEFINITION. The sequencer: what the host's input does, the timer's hold, acceptance of a request, the cancellation points, and one move of SEQ (10_state.md section 3, 60_exceptions.md sections 2 and 7). -/

namespace Sys2Proof.Machine

open Sys2Proof

/-- Apply `f` to a next state. -/
def onNext (f : State → State) : Host.Outcome State Fault Refusal → Host.Outcome State Fault Refusal
  | .next s => .next (f s)
  | .fault r => .fault r
  | .refused r => .refused r

/-- The host's input at this step; a step beyond the list finds a host that does nothing (log 2). -/
def State.hostNow (s : State) : HostInput := s.host.headD {}

/-- `cancel` raised: latched while an operation is in progress, ignored when idle (R184). -/
def State.raiseCancel (cancel : Bool) (s : State) : State :=
  { s with cancelPend := s.cancelPend || (cancel && s.busy) }

/-- A request put on the request channel; it has no effect on an operation in progress (R33, R199). -/
def State.present (r : Option Request) (s : State) : State :=
  match r with
  | none => s
  | some _ => { s with req := r }

/-- The host's input consumed: its request stands on the channel, its cancel is latched. -/
def State.afterHost (s : State) : State :=
  State.raiseCancel s.hostNow.cancel (State.present s.hostNow.present { s with host := s.host.tail })

/-- Acceptance of a request by an idle engine (R10, R33): it leaves the channel, is decoded, and its operation begins.
A cancel raised at that moment loses to an argument check (R191) and otherwise waits for the point before the first
unit (R186; log 15). -/
def accept (cancel : Bool) (r : Request) (s : State) : Host.Outcome State Fault Refusal :=
  match decode (.request r) with
  | .error e => .refused (.malformedRequest e)
  | .ok i =>
    if i.wf s.cfg then onNext (State.raiseCancel cancel) (exec i { s with req := none })
    else .refused .operandOutOfRange

/-- The loop of `WRITE`, `READ`, `DEFINE_CHAR` (R164 to R166, R27): while `IDX` has not reached its end, one
`readData` or one `doData` of the next byte; a byte the host has not supplied is waited for (log 23). -/
def dataLoop (s : State) : State :=
  if s.idx = s.dataEnd then s
  else if s.op = 0x6#4 then s.push [.run .readData, .byteRead, .dataLoop]
  else
    match s.aBytes[s.idx]? with
    | some b => s.push [.run (.data b), .byteSent, .dataLoop]
    | none => s.push [.dataLoop]

/-- One move of the sequencer: `m` is the position reached, `s.seq` what stands after it. -/
def runMicro (m : Micro) (s : State) : Host.Outcome State Fault Refusal :=
  match m with
  | .run i => exec i s
  | .unit i => exec i s
  | .send bs => .next (s.send bs)
  | .recv => bfOnly "recv" s State.recv
  | .writeLow rs => .next (State.push [.run (.write4 rs (loNibble s.byte))] { s with phase := .lo })
  | .readLow rs => .next (State.push [.run (.read4 rs)] { s with phase := .lo })
  | .statusTest => exec (decodeStatus s.byte) s
  | .keepRead => .next { s with rdata := s.byte }
  | .startData => .next { s with idx := 0, rbuf := [] }
  | .dataLoop => .next (dataLoop s)
  | .byteSent => .next { s with idx := s.idx + 1 }
  | .byteRead => .next { s with idx := s.idx + 1, rbuf := s.rbuf ++ [s.rdata] }
  | .finish => .next s.complete

/-- A cancellation point stands before each unit and nowhere else (R186). -/
def atCancellationPoint : List Micro → Bool
  | .unit _ :: _ => true
  | _ => false

/-- One move of the engine, the host's input consumed. While `TMR` is not zero the sequencer holds (R138); an idle
engine takes the request on its channel or waits (R33); at a cancellation point a pending cancel is taken (R187). -/
def engine (cancel : Bool) (s : State) : Host.Outcome State Fault Refusal :=
  if s.tmr ≠ 0 then .next s.tick
  else
    match s.seq with
    | [] =>
      match s.req with
      | none => .next s
      | some r => accept cancel r s
    | m :: rest =>
      if s.cancelPend && atCancellationPoint (m :: rest) then .next s.takeCancel
      else runMicro m (s.goto rest)

/-- One step of the machine: reset, if the host asserts it, else the host's other input and one move of the engine. -/
def cycle (s : State) : Host.Outcome State Fault Refusal :=
  match s.hostNow.reset with
  | some cfg => .next (State.restart cfg { s with host := s.host.tail })
  | none => engine s.hostNow.cancel s.afterHost

/-- The next step finds the instruction of a table's word: a request word stands on the request channel of an idle
engine, a command word's instruction is the sequencer's next position, and the host does nothing (log 19, log 20). -/
def placeWord (nbits w : Nat) (s : State) : State :=
  match tableWire nbits w with
  | some (.request r) => { s with seq := [], tmr := 0, req := some r, host := {} :: s.host }
  | some wire =>
    match decode wire with
    | .ok i => { s with seq := [.run i, .finish], tmr := 0, host := {} :: s.host }
    | .error _ => s
  | none => s

end Sys2Proof.Machine
end

