-- ==== Sys2Proof/Machine/Step.lean ====
section
/-! DEFINITION. The step of the machine, and where a word of the opcode table is placed for the next step to run it. -/

namespace Sys2Proof.Machine

open Sys2Proof

/-- One step: one event of the trace, one tick of a running timer, or one move without an event (log 1). -/
def step (s : State) : Host.Outcome State Fault Refusal := cycle s

/-- `s` with the instruction of a table's word where the next step takes it (log 19, log 20). -/
def State.withFetchWord (s : State) (nbits w : Nat) : State := placeWord nbits w s

end Sys2Proof.Machine
end

