-- ==== Sys2Proof/Safety.lean ====
section
/-! DEFINITION. The terms the claims use: runs, the traces the spec's rules write out, the outside world a claim supposes, and the invariant of the engine. -/

namespace Sys2Proof.Machine

open Sys2Proof

-- Runs

/-- `n` steps of the machine, stopping at the first stop: `Host.Core.run` of `Sys2Proof.core`, over `State` itself. -/
def run : Nat → State → Host.Outcome State Fault Refusal
  | 0, s => .next s
  | n + 1, s =>
    match step s with
    | .next t => run n t
    | .fault r => .fault r
    | .refused r => .refused r

/-- Some number of steps of the machine leads from `s` to `t`, with no stop on the way. -/
def Reaches (s t : State) : Prop := ∃ n, run n s = .next t

/-- Nothing from outside disturbs the run: no host act, no transport failure, no pending cancel, the timer stopped. -/
def Quiet (s : State) : Prop := s.host = [] ∧ s.link = [] ∧ s.cancelPend = false ∧ s.tmr = 0

/-- Quiet and ready: `SEQ = IDLE` (R33). -/
def QuietIdle (s : State) : Prop := Quiet s ∧ s.seq = []

/-- `BUS` after events: the argument of the last `Send`, else as before (R21). -/
def busAfter (b : BusState) : List Event → BusState
  | [] => b
  | .send bs :: es => busAfter bs es
  | _ :: es => busAfter b es

/-- The state after completed events: they are in the trace, and `BUS` follows them. -/
def State.emit (es : List Event) (s : State) : State :=
  { s with trace := s.trace ++ es, bus := busAfter s.bus es }

-- The traces of the rules, written out from the spec's pseudocode

/-- A BusState literal `{rs, rw, e, d}`; the `rw` field is dropped in FD (00_scope.md section 5, R71). -/
def busLit (cfg : Config) (rs rw e : Bool) (d : Option Nibble) : BusState :=
  match cfg.variant with
  | .bf => ⟨rs, some rw, e, d⟩
  | .fd => ⟨rs, none, e, d⟩

/-- The seven events of R100. -/
def write4Trace (cfg : Config) (rs : Bool) (n : Nibble) : List Event :=
  [ .send (busLit cfg rs false false (some n)),
    .delay cfg.tAS,
    .send (busLit cfg rs false true (some n)),
    .delay cfg.tPW,
    .send (busLit cfg rs false false (some n)),
    .delay cfg.tCYCR,
    .send (busLit cfg rs false false none) ]

/-- The eight events of R101, the transport returning `v`. -/
def read4Trace (cfg : Config) (rs : Bool) (v : Byte) : List Event :=
  [ .send (busLit cfg rs true false none),
    .delay cfg.tAS,
    .send (busLit cfg rs true true none),
    .delay cfg.tDDR,
    .recv v,
    .delay cfg.tRDH,
    .send (busLit cfg rs true false none),
    .delay cfg.tCYCR ]

/-- R102: two `write4`, the nibbles `b>>4` and `b&0xF`, high nibble first. -/
def write8Trace (cfg : Config) (rs : Bool) (b : Byte) : List Event :=
  write4Trace cfg rs ((b >>> 4).setWidth 4) ++ write4Trace cfg rs ((b &&& 0xF#8).setWidth 4)

/-- R103: two `read4`, the transport returning `v.1` and then `v.2`. -/
def read8Trace (cfg : Config) (rs : Bool) (v : Byte × Byte) : List Event :=
  read4Trace cfg rs v.1 ++ read4Trace cfg rs v.2

/-- The byte R103 assembles from the two bytes received: `(hi<<4)|(lo&0xF)` with `hi` reduced to four bits. -/
def assembled (v : Byte × Byte) : Byte := ((v.1 &&& 0xF#8) <<< 4) ||| (v.2 &&& 0xF#8)

/-- The polls of one busy-wait as the controller answers them: some that find it busy, then one that does not. -/
structure Polls where
  busy : List (Byte × Byte)
  last : Byte × Byte
  deriving DecidableEq, Repr

def Polls.all (w : Polls) : List (Byte × Byte) := w.busy ++ [w.last]

/-- Bit 7 of every assembled status byte is 1, but for the last one (R132, R133). -/
def Polls.Valid (w : Polls) : Prop :=
  (∀ v ∈ w.busy, (assembled v).getLsbD 7 = true) ∧ (assembled w.last).getLsbD 7 = false

/-- The bytes the transport returns for some pairs of nibble reads, in order. -/
def pairBytes (vs : List (Byte × Byte)) : List Byte := vs.flatMap fun v => [v.1, v.2]

/-- R132: one `read8(IR)` for each poll, and nothing else. -/
def busyWaitTrace (cfg : Config) (w : Polls) : List Event := w.all.flatMap (read8Trace cfg false)

/-- R130: the polls in BF, `Delay(T_EXEC)` in FD. -/
def policyWaitTrace (cfg : Config) (w : Polls) : List Event :=
  match cfg.variant with
  | .bf => busyWaitTrace cfg w
  | .fd => [.delay cfg.tEXEC]

/-- R120. -/
def doCmdTrace (cfg : Config) (b : Byte) (w : Polls) : List Event :=
  write8Trace cfg false b ++ policyWaitTrace cfg w

/-- R121. -/
def doDataTrace (cfg : Config) (b : Byte) (w : Polls) : List Event :=
  write8Trace cfg true b ++ policyWaitTrace cfg w

/-- R122: the data read, the transport returning `v`, then the busy-wait. -/
def readDataTrace (cfg : Config) (v : Byte × Byte) (w : Polls) : List Event :=
  read8Trace cfg true v ++ busyWaitTrace cfg w

/-- R160: in FD the extended settle is added. -/
def clearTrace (cfg : Config) (w : Polls) : List Event :=
  doCmdTrace cfg 0x01#8 w ++
    match cfg.variant with
    | .bf => []
    | .fd => [.delay cfg.tCLEAR]

/-- R150: the nine steps; `w` names the polls of the six policy waits, in order. -/
def initTrace (cfg : Config) (w : Fin 6 → Polls) : List Event :=
  write4Trace cfg false 0x3#4 ++ [.delay cfg.tINIT1] ++
  write4Trace cfg false 0x3#4 ++ [.delay cfg.tINIT2] ++
  write4Trace cfg false 0x3#4 ++ [.delay cfg.tINIT3] ++
  write4Trace cfg false 0x2#4 ++
  policyWaitTrace cfg (w 0) ++ doCmdTrace cfg 0x28#8 (w 1) ++
  doCmdTrace cfg 0x08#8 (w 2) ++
  clearTrace cfg (w 3) ++
  doCmdTrace cfg 0x06#8 (w 4) ++
  doCmdTrace cfg 0x0C#8 (w 5)

/-- The `0x80 | address` of R164 and R165, `address = column + line × 0x40` (R85). -/
def addressCommand (line : BitVec 1) (column : BitVec 6) : Byte :=
  BitVec.ofNat 8 (0x80 ||| (column.toNat + line.toNat * 0x40))

/-- The `0x40 | code×8` of R166. -/
def glyphCommand (code : BitVec 4) : Byte := BitVec.ofNat 8 (0x40 ||| code.toNat * 8)

/-- The data phase of `WRITE` and `DEFINE_CHAR`: one `doData` for each byte in order. -/
def dataTrace (cfg : Config) (bytes : List Byte) (ws : List Polls) : List Event :=
  (bytes.zip ws).flatMap fun x => doDataTrace cfg x.1 x.2

/-- The data phase of `READ`: one `readData` for each byte in order. -/
def readsTrace (cfg : Config) (vs : List (Byte × Byte)) (ws : List Polls) : List Event :=
  (vs.zip ws).flatMap fun x => readDataTrace cfg x.1 x.2

-- What the controller answers in a run

/-- The bytes one policy wait consumes: those of its polls in BF, none in FD. -/
def waitBytes (cfg : Config) (w : Polls) : List Byte :=
  match cfg.variant with
  | .bf => pairBytes w.all
  | .fd => []

/-- In BF every wait's polls end as R132 says; in FD nothing is polled. -/
def WaitsOk (cfg : Config) (ws : List Polls) : Prop := cfg.variant = .bf → ∀ w ∈ ws, w.Valid

/-- The state after a policy wait whose polls are `w` (R130, R132): in BF `BYTE` holds the last status byte,
`BF` is 0 and the answers are used up. -/
def State.afterWait (w : Polls) (s : State) : State :=
  match s.cfg.variant with
  | .fd => s.emit (policyWaitTrace s.cfg w)
  | .bf =>
    { s.emit (policyWaitTrace s.cfg w) with
      byte := assembled w.last
      phase := .lo
      bf := false
      rx := s.rx.drop (pairBytes w.all).length }

/-- The state after a `write8(rs, b)` (R102). -/
def State.afterWrite8 (rs : Bool) (b : Byte) (s : State) : State :=
  { s.emit (write8Trace s.cfg rs b) with byte := b, phase := .lo }

/-- The state after a `read8(rs)` that received `v` (R103). -/
def State.afterRead8 (rs : Bool) (v : Byte × Byte) (s : State) : State :=
  { s.emit (read8Trace s.cfg rs v) with byte := assembled v, phase := .lo, rx := s.rx.drop 2 }

/-- From `s` to `u` one operation ran to its end (R180, R186, R203): these events, this data in the response, these
answers left; the configuration and the channels otherwise as they were. -/
def Completed (s u : State) (es : List Event) (data rest : List Byte) : Prop :=
  u.cfg = s.cfg ∧ u.seq = [] ∧ u.tmr = 0 ∧ u.status = .ok ∧ u.cancelPend = false ∧
  u.trace = s.trace ++ es ∧ u.bus = busAfter s.bus es ∧
  u.responses = s.responses ++ [{ status := .ok, data := data, report := none }] ∧
  u.rx = rest ∧ u.req = s.req ∧ u.host = s.host ∧ u.link = s.link ∧ u.draws = s.draws

/-- From `s` to `u` one request was turned away before any event (R181, R183, R190): its status in the response, the
bus, the trace and the outside as they were. -/
def TurnedAway (s u : State) (e : Status) : Prop :=
  u.cfg = s.cfg ∧ u.seq = [] ∧ u.tmr = s.tmr ∧ u.status = e ∧ u.cancelPend = false ∧
  u.trace = s.trace ∧ u.bus = s.bus ∧
  u.responses = s.responses ++ [{ status := e, data := [], report := none }] ∧
  u.rx = s.rx ∧ u.req = s.req ∧ u.host = s.host ∧ u.link = s.link ∧ u.draws = s.draws

/-- The argument check a host operation meets at acceptance, before any event (R191): a reserved selector, then the
operation's own check. -/
def argumentFault (cfg : Config) : Instr → Option Status
  | .opReserved _ => some .invalidArgument
  | .opDefineChar code bitmap => if 7 < code.toNat ∨ bitmap.length ≠ 8 then some .invalidArgument else none
  | .opRead _ _ _ => if cfg.variant = .fd then some .unsupported else none
  | _ => none

/-- A request whose byte stream does not have the length its length port says: `len` for `WRITE`, `blen` for
`DEFINE_CHAR` (R88). Not expressible at the engine's ports (U3). -/
def StreamMisfits (r : Request) : Prop :=
  (r.opsel = 0x5#4 ∧ r.stream.length ≠ r.len) ∨ (r.opsel = 0x7#4 ∧ r.stream.length ≠ r.blen.toNat)

/-- A `WRITE` or `READ` whose length is above `LEN_MAX` (R5, U3). -/
def LengthTooLong (cfg : Config) (r : Request) : Prop :=
  (r.opsel = 0x5#4 ∨ r.opsel = 0x6#4) ∧ cfg.lenMax < r.len

-- A transport that may fail

/-- The events of `es` as far as the transport carries them, its completion codes being `codes`: a failing call is the
last event, `Send(bs)!` or `Recv!`, and gives the report (R182). -/
def carried : List (Option Report) → List Event → List Event × Option Report
  | _, [] => ([], none)
  | codes, .send bs :: es =>
    match codes.headD none with
    | none => ((carried codes.tail es).1.cons (.send bs), (carried codes.tail es).2)
    | some r => ([.sendFailed bs], some r)
  | codes, .recv v :: es =>
    match codes.headD none with
    | none => ((carried codes.tail es).1.cons (.recv v), (carried codes.tail es).2)
    | some r => ([.recvFailed], some r)
  | codes, e :: es => ((carried codes es).1.cons e, (carried codes es).2)

/-- From `s` to `u` a transport failure ended the operation in progress (R182, R190): these events, the last of them
failed, the report handed to the host unchanged, no event after it. -/
def Failed (s u : State) (es : List Event) (r : Report) : Prop :=
  u.cfg = s.cfg ∧ u.seq = [] ∧ u.tmr = 0 ∧ u.status = .transportFailure ∧ u.cancelPend = false ∧
  u.trace = s.trace ++ es ∧
  u.responses = s.responses ++ [{ status := .transportFailure, data := [], report := some r }]

-- The invariant

/-- No event of the trace is a failed `send` or `recv`. -/
def NoFailure (es : List Event) : Prop := ∀ e ∈ es, e ≠ .recvFailed ∧ ∀ bs, e ≠ .sendFailed bs

/-- The terminal bus state: "Enable low and data lines released" (R104). -/
def Released (b : BusState) : Prop := b.e = false ∧ b.d = none

/-- One step of the line states (R105): `rs`, `rw` and the data keep their values across a rising and across a
falling edge of Enable, and a high Enable is followed by a low one. -/
def EdgeOk (b b' : BusState) : Prop :=
  (b'.e = true → b.e = false) ∧ (b'.e = true ∨ b.e = true → b.rs = b'.rs ∧ b.rw = b'.rw ∧ b.d = b'.d)

/-- The BusStates sent, in order. -/
def sends : List Event → List BusState
  | [] => []
  | .send bs :: es => bs :: sends es
  | _ :: es => sends es

/-- The command bytes some operation emits: all but those R91 lists. -/
def emittedCommand (b : Byte) : Bool :=
  !(b == 0x00#8) && !(b == 0x03#8) &&
  !(decide (0x10#8 ≤ b) && decide (b ≤ 0x1F#8)) &&
  !(decide (0x20#8 ≤ b) && decide (b ≤ 0x3F#8) && !(b == Config.functionSetByte)) &&
  !(decide (0x40#8 ≤ b) && decide (b ≤ 0x7F#8) && !(b &&& 0x07#8 == 0#8))

def isBf (cfg : Config) : Bool := decide (cfg.variant = .bf)

/-- What a position run without a cancellation point may be. -/
def runLegal (cfg : Config) : Instr → Bool
  | .cmdClear | .cmdHome | .cmdEntryMode _ _ | .cmdDisplayControl _ _ _ | .cmdFunctionSet | .cmdSetDdram _ => true
  | .cmdSetCgram a => a &&& 0x07#6 == 0#6
  | .data _ | .initNibble3 | .initNibble2 => true
  | .status _ _ => false
  | .opInit | .opClear | .opHome | .opEntryMode _ _ | .opDisplayControl _ _ _ => false
  | .opWrite _ _ _ | .opRead _ _ _ | .opDefineChar _ _ | .opReserved _ => false
  | .write4 _ _ => true
  | .read4 _ => isBf cfg
  | .write8 _ _ | .read8 _ => false
  | .doCmd b => emittedCommand b
  | .doData _ | .policyWait => true
  | .readData | .busyWait => isBf cfg
  | .delay n => decide (n ≤ cfg.maxDelay)

/-- What a unit of R186 may be: a stand-alone `write4` is one of `INIT`'s nibbles (R92), a byte written to IR is one
that some operation emits (R91), a read exists in BF only (R131). -/
def unitLegal (cfg : Config) : Instr → Bool
  | .write4 rs n => !rs && (n == 0x3#4 || n == 0x2#4)
  | .write8 rs b => rs || emittedCommand b
  | .read8 _ => isBf cfg
  | .delay n => decide (n ≤ cfg.maxDelay)
  | _ => false

/-- A position `SEQ` may hold. -/
def Micro.legal (cfg : Config) : Micro → Bool
  | .run i => runLegal cfg i
  | .unit i => unitLegal cfg i
  | .send bs => bs.rw.isSome == isBf cfg
  | .recv | .readLow _ | .statusTest | .keepRead | .byteRead => isBf cfg
  | .writeLow _ | .startData | .dataLoop | .byteSent | .finish => true

/-- A position inside a critical section (R185): an event of a nibble, or the rest of a nibble pair. -/
def Micro.inCodec : Micro → Bool
  | .send _ | .recv | .writeLow _ | .readLow _ => true
  | .run (.write4 _ _) | .run (.read4 _) | .run (.delay _) => true
  | _ => false

/-- A position at which Enable may be high and the lines driven: an event in the middle of a nibble. -/
def Micro.midNibble : Micro → Bool
  | .send _ | .recv => true
  | .run (.delay _) => true
  | _ => false

/-- The BusState a position sends. -/
def Micro.sent : Micro → Option BusState
  | .send bs => some bs
  | _ => none

/-- With `b` on the bus, what `SEQ` still sends keeps the Enable shape (R105), and the bus is released (R104) at every
position that is not in the middle of a nibble, and at the end. What such a position does leaves the bus released,
with whatever `rs` and `rw`. -/
def Settles : BusState → List Micro → Prop
  | b, [] => Released b
  | b, m :: ms =>
    match m.sent, m.midNibble with
    | some bs, _ => EdgeOk b bs ∧ Settles bs ms
    | none, true => Settles b ms
    | none, false => Released b ∧ ∀ b', Released b' → Settles b' ms

/-- Positions inside a critical section stand before all others, and an operation in progress ends with its
completion and holds no other (R26, R185). -/
def SeqShape (ms : List Micro) : Prop :=
  ms = [] ∨ ∃ codec body, ms = codec ++ body ++ [.finish] ∧
    (∀ m ∈ codec, m.inCodec = true) ∧ ∀ m ∈ body, m.inCodec = false ∧ m ≠ .finish

/-- An event an engine of this configuration may issue: no `Recv` and no `rw` field in FD, an `rw` field in every
BusState in BF (R131, R70). -/
def Event.allowed (cfg : Config) : Event → Bool
  | .send bs => bs.rw.isSome == isBf cfg
  | .recv _ => isBf cfg
  | .delay n => decide (n ≤ cfg.maxDelay)
  | .sendFailed bs => bs.rw.isSome == isBf cfg
  | .recvFailed => isBf cfg

/-- The invariant: what holds after reset, under every configuration R5 admits, and what every step keeps, whatever
the host, the transport and the controller do. -/
structure Inv (s : State) : Prop where
  /-- R5, R6, and for every configuration a later reset samples. -/
  cfg : s.cfg.wf = true
  resets : ∀ h ∈ s.host, ∀ c, h.reset = some c → c.wf = true
  /-- R20, R71: `BUS.RW` exists exactly in BF. -/
  rw : s.bus.rw.isSome = isBf s.cfg
  /-- R26, R185. -/
  shape : SeqShape s.seq
  /-- R91, R92, R131, R140. -/
  legal : ∀ m ∈ s.seq, m.legal s.cfg = true
  /-- R170: no `READ` is in progress in FD. -/
  noRead : s.cfg.variant = .fd → s.op = 0x6#4 → s.seq = []
  /-- R140: "The timer never wraps". -/
  timer : s.tmr < 2 ^ timerWidth s.cfg
  /-- R28: `TMR` is zero when no delay is in progress; R31: `CANCEL_PEND` is cleared when the operation ends. -/
  idle : s.seq = [] → s.tmr = 0 ∧ s.cancelPend = false
  /-- R131. -/
  events : ∀ e ∈ s.trace, e.allowed s.cfg = true
  /-- R21: `BUS` is the last `Send` of the trace, or its reset value. -/
  bus : NoFailure s.trace → s.bus = busAfter (resetBus s.cfg) s.trace
  /-- R104. -/
  settles : NoFailure s.trace → Settles s.bus s.seq
  /-- R105. -/
  edges : NoFailure s.trace → List.IsChain EdgeOk (resetBus s.cfg :: sends s.trace)

-- The nibble phase (R56, R217)

/-- Enable pulses in a trace: the `Send` events with Enable high. -/
def pulses (es : List Event) : Nat := (sends es).countP (·.e)

/-- Enable pulses a position still stands for. -/
def Micro.pulses : Micro → Nat
  | .send bs => if bs.e then 1 else 0
  | .run (.write4 _ _) | .unit (.write4 _ _) => 1
  | .run (.read4 _) | .unit (.read4 _) => 1
  | .writeLow _ | .readLow _ => 1
  | .unit (.write8 _ _) | .run (.write8 _ _) => 2
  | .unit (.read8 _) | .run (.read8 _) => 2
  | .run .initNibble3 | .unit .initNibble3 | .run .initNibble2 | .unit .initNibble2 => 1
  | _ => 0

/-- No single nibble of `INIT` stands in `SEQ`. -/
def NoSingleNibble (ms : List Micro) : Prop :=
  ∀ m ∈ ms, m ≠ .run .initNibble3 ∧ m ≠ .run .initNibble2 ∧ ∀ rs n, m ≠ .unit (.write4 rs n)

/-- Enable pulses issued and still owed by the transaction in progress. -/
def State.pulsesOwed (s : State) : Nat := Sys2Proof.Machine.pulses s.trace + (s.seq.map Micro.pulses).sum

end Sys2Proof.Machine
end

