-- ==== Sys2Proof/Certificates/Slice0/Obligations.lean ====
section
/-! DEFINITION. The statements for the provers: each formalises rules of spec/ (its docstring says which) or rests on the sections it names. -/

open Sys2Proof Sys2Proof.Machine

-- Encodings (30_encoding.md)

/-- Decoding the encoding of a well-formed instruction gives it back, with every operand at every value the encoding
admits: the seven command bytes (R76 to R82), DATA (R84), the two nibbles (R83), STATUS (R74), the host requests
(R88) and the reserved selectors (R89). The byte of FUNCTION_SET is the model's 0x28 (log 8, PRESUMED). -/
def Obligations.DecodeOfEncodeIsTheInstruction : Prop :=
  ∀ (cfg : Config) (i : Instr) (w : Wire), i.wf cfg = true → encode i = some w → decode w = .ok i

/-- A byte decodes to a command exactly when R91 does not exclude its whole form, and then the command encodes to that
byte: the forms of R75 do not overlap. The value 0x28 of FUNCTION_SET_BYTE is the model's (log 8, PRESUMED). -/
def Obligations.CommandByteHasOneMeaning : Prop :=
  (∀ (b : Byte) (i : Instr), decodeCmd b = .ok i → encode i = some (.cmd b)) ∧
  ∀ b : Byte, decodeCmd b = .error .noSuchCommand ↔
    b.toNat = 0x00 ∨ b.toNat = 0x03 ∨ (0x10 ≤ b.toNat ∧ b.toNat ≤ 0x1F) ∨
      (0x20 ≤ b.toNat ∧ b.toNat ≤ 0x3F ∧ b.toNat ≠ 0x28)

/-- Words written out from the encodings of the spec decode to what they stand for (R76 to R82, R83, R84, R74, R88,
R89; 95_test_vectors.md TV-21, TV-22, TV-25). That 0x28 is FUNCTION_SET is the model's choice (log 8, PRESUMED). -/
def Obligations.WordsOfTheSpecDecode : Prop :=
  decode (.cmd 0b00000001#8) = .ok .cmdClear ∧
  decode (.cmd 0b00000010#8) = .ok .cmdHome ∧
  decode (.cmd 0b00000101#8) = .ok (.cmdEntryMode false true) ∧
  decode (.cmd 0b00001100#8) = .ok (.cmdDisplayControl true false false) ∧
  decode (.cmd 0b00101000#8) = .ok .cmdFunctionSet ∧
  decode (.cmd 0b01011000#8) = .ok (.cmdSetCgram 24#6) ∧
  decode (.cmd 0b11001111#8) = .ok (.cmdSetDdram 0x4F#7) ∧
  decode (.data 0x48#8) = .ok (.data 0x48#8) ∧
  decode (.nibble 0x3#4) = .ok .initNibble3 ∧
  decode (.nibble 0x2#4) = .ok .initNibble2 ∧
  decode (.status 0x83#8) = .ok (.status true 3#7) ∧
  decode (.request { opsel := 0x5#4, column := 5#6 }) = .ok (.opWrite 0#1 5#6 []) ∧
  decode (.request { opsel := 0x9#4 }) = .ok (.opReserved 1#3)

-- The nibble codec (40_nibble_codec.md)

/-- R100: `write4` issues its seven events whatever is pending from a cancel (it is a critical section), as far as the
transport carries them; a failing `send` raises `TransportFailure` and the remaining events are not issued. Nothing
but the trace, `BUS` and the consumed codes changes when none fails. -/
def Obligations.Write4IssuesItsSevenEvents : Prop :=
  ∀ (s : State) (rs : Bool) (n : Nibble), s.host = [] → s.tmr = 0 →
    ∃ t, exec (.write4 rs n) s = .next t ∧
      ((carried s.link (write4Trace s.cfg rs n)).2 = none →
        Reaches t { s.emit (write4Trace s.cfg rs n) with link := s.link.drop 4 }) ∧
      ∀ r, (carried s.link (write4Trace s.cfg rs n)).2 = some r →
        ∃ u, Reaches t u ∧ Failed s u (carried s.link (write4Trace s.cfg rs n)).1 r

/-- R101: `read4` issues its eight events in the BF variant, the transport returning `v`; its nibble `v[3:0]` is the
one of `BYTE` that `PHASE` names, and bits 7:4 of `v` are discarded; a failing `send` or `recv` raises
`TransportFailure`; in FD the primitive does not exist. The model's choice: that the nibble stands in `BYTE` as soon
as it is read (log 12), and that the primitive is refused by name in FD (log 18). -/
def Obligations.Read4IssuesItsEightEvents : Prop :=
  (∀ (s : State) (rs : Bool) (v : Byte) (rest : List Byte), s.cfg.variant = .bf → s.host = [] → s.tmr = 0 →
    s.rx = v :: rest →
    ∃ t, exec (.read4 rs) s = .next t ∧
      ((carried s.link (read4Trace s.cfg rs v)).2 = none →
        Reaches t { s.emit (read4Trace s.cfg rs v) with
          byte := (match s.phase with
            | .hi => (v &&& 0xF#8) <<< 4
            | .lo => (s.byte &&& 0xF0#8) ||| (v &&& 0xF#8))
          rx := rest
          link := s.link.drop 4 }) ∧
      ∀ r, (carried s.link (read4Trace s.cfg rs v)).2 = some r →
        ∃ u, Reaches t u ∧ Failed s u (carried s.link (read4Trace s.cfg rs v)).1 r) ∧
  ∀ (s : State) (rs : Bool), s.cfg.variant = .fd → exec (.read4 rs) s = .refused (.absentInFd "read4")

/-- R102: `write8` issues two `write4`, high nibble first, nothing between them; `BYTE` and `PHASE` take their values;
the pair is one critical section; a failure in it ends it. -/
def Obligations.Write8IsTwoWrite4HighNibbleFirst : Prop :=
  ∀ (s : State) (rs : Bool) (b : Byte), s.host = [] → s.tmr = 0 →
    ∃ t, exec (.write8 rs b) s = .next t ∧
      ((carried s.link (write8Trace s.cfg rs b)).2 = none →
        Reaches t { s.afterWrite8 rs b with link := s.link.drop 8 }) ∧
      ∀ r, (carried s.link (write8Trace s.cfg rs b)).2 = some r →
        ∃ u, Reaches t u ∧ Failed s u (carried s.link (write8Trace s.cfg rs b)).1 r

/-- R103: `read8` issues two `read4`, high nibble first, and `BYTE` is `(hi<<4)|(lo&0xF)`; BF variant only: in FD
the model refuses it by name (log 18). -/
def Obligations.Read8IsTwoRead4HighNibbleFirst : Prop :=
  (∀ (s : State) (rs : Bool) (v : Byte × Byte) (rest : List Byte), s.cfg.variant = .bf → s.host = [] → s.tmr = 0 →
    s.rx = v.1 :: v.2 :: rest →
    ∃ t, exec (.read8 rs) s = .next t ∧
      ((carried s.link (read8Trace s.cfg rs v)).2 = none →
        Reaches t { s.afterRead8 rs v with link := s.link.drop 8 }) ∧
      ∀ r, (carried s.link (read8Trace s.cfg rs v)).2 = some r →
        ∃ u, Reaches t u ∧ Failed s u (carried s.link (read8Trace s.cfg rs v)).1 r) ∧
  ∀ (s : State) (rs : Bool), s.cfg.variant = .fd → exec (.read8 rs) s = .refused (.absentInFd "read8")

-- The timing policy (42_timing_policy.md)

/-- R138: `delay(n)` issues `Delay(n)` and loads `TMR` with `ceil(n / TICK_NS)`, the least `k` with
`n <= k * TICK_NS`; while `TMR` is not zero no other event is issued and the sequencer holds; after `k` ticks
`TMR = 0`, and for `n = 0` that is at once. -/
def Obligations.DelayHoldsTheSequencer : Prop :=
  ∀ (s : State) (n : Nat), s.cfg.wf = true → s.host = [] →
    ∃ k t, (n ≤ k * s.cfg.tickNs ∧ ∀ j, n ≤ j * s.cfg.tickNs → k ≤ j) ∧
      exec (.delay n) s = .next t ∧ t = { s with trace := s.trace ++ [.delay n], tmr := k } ∧
      (∀ j, j < k → ∃ u, run j t = .next u ∧ u = { t with tmr := k - j }) ∧
      run k t = .next { t with tmr := 0 }

/-- R139: the ticks that pass between the event before `Delay(n)` and the one after it last at least `n` ns: no run
shorter than that brings the timer to zero. -/
def Obligations.DelayIsALowerBound : Prop :=
  ∀ (s t u : State) (n j : Nat), s.cfg.wf = true → s.host = [] → exec (.delay n) s = .next t →
    run j t = .next u → u.tmr = 0 → n ≤ j * s.cfg.tickNs

/-- R130: `policyWait` is the busy-wait in BF and `Delay(T_EXEC)` in FD. -/
def Obligations.PolicyWaitFollowsTheVariant : Prop :=
  ∀ (s : State) (w : Polls) (rest : List Byte), Quiet s → WaitsOk s.cfg [w] → s.rx = waitBytes s.cfg w ++ rest →
    ∃ t, exec .policyWait s = .next t ∧ Reaches t (s.afterWait w)

/-- R132: `busyWait` issues one `read8(IR)` for each poll, up to the first whose bit 7 is 0, and nothing else;
afterwards `BF = 0`. In FD it does not exist (R131), and the model refuses it by name (log 18). -/
def Obligations.BusyWaitPollsUntilFree : Prop :=
  (∀ (s : State) (w : Polls) (rest : List Byte), Quiet s → s.cfg.variant = .bf → w.Valid →
    s.rx = pairBytes w.all ++ rest →
    ∃ t, exec .busyWait s = .next t ∧
      Reaches t { s.emit (busyWaitTrace s.cfg w) with
        byte := assembled w.last, phase := .lo, bf := false, rx := rest }) ∧
  ∀ s : State, s.cfg.variant = .fd → exec .busyWait s = .refused (.absentInFd "busyWait")

/-- R134, R188: there is no timeout: however many polls answer busy, the engine issues them all, comes back to the
busy-wait, has given no response and has not become idle; each poll takes at least one step, so the run is unbounded. -/
def Obligations.BusyWaitHasNoTimeout : Prop :=
  ∀ (s : State) (k : List Micro) (vs : List (Byte × Byte)) (rest : List Byte), Quiet s → s.cfg.variant = .bf →
    s.seq = .run .busyWait :: k → (∀ v ∈ vs, (assembled v).getLsbD 7 = true) → s.rx = pairBytes vs ++ rest →
    ∃ n u, vs.length ≤ n ∧ run n s = .next u ∧ u.seq = .run .busyWait :: k ∧
      u.trace = s.trace ++ vs.flatMap (read8Trace s.cfg false) ∧ u.responses = s.responses ∧ u.status = s.status

/-- R74, R132, R136: the status byte of a poll: `BF <- bit 7`, the loop goes on exactly while it is 1, bits 6:0 have
no influence; BF variant only: in FD the model refuses it by name (log 18). -/
def Obligations.StatusByteSetsBusyFlag : Prop :=
  ∀ (s : State) (ignored : BitVec 7),
    (s.cfg.variant = .bf →
      exec (.status false ignored) s = .next { s with bf := false } ∧
      exec (.status true ignored) s = .next { s with bf := true, seq := .run .busyWait :: s.seq }) ∧
    (s.cfg.variant = .fd → ∀ busy, exec (.status busy ignored) s = .refused (.absentInFd "STATUS"))

-- The command sequencer (41_command_sequencer.md)

/-- R120: `doCmd(b)` is `write8(IR, b)` and then the policy wait, whatever `b` is. -/
def Obligations.DoCmdWritesThenWaits : Prop :=
  ∀ (s : State) (b : Byte) (w : Polls) (rest : List Byte), Quiet s → WaitsOk s.cfg [w] →
    s.rx = waitBytes s.cfg w ++ rest →
    ∃ t u, exec (.doCmd b) s = .next t ∧ Reaches t u ∧ u = (s.afterWrite8 false b).afterWait w ∧
      u.trace = s.trace ++ doCmdTrace s.cfg b w

/-- R121: `doData(b)` is `write8(DR, b)` and then the policy wait. -/
def Obligations.DoDataWritesThenWaits : Prop :=
  ∀ (s : State) (b : Byte) (w : Polls) (rest : List Byte), Quiet s → WaitsOk s.cfg [w] →
    s.rx = waitBytes s.cfg w ++ rest →
    ∃ t u, exec (.doData b) s = .next t ∧ Reaches t u ∧ u = (s.afterWrite8 true b).afterWait w ∧
      u.trace = s.trace ++ doDataTrace s.cfg b w

/-- R122: `readData` is `read8(DR)` and then a busy-wait on IR, whose result is no part of the value kept. In FD it does
not exist (R131), and the model refuses it by name (log 18). The field that keeps the value is the model's (log 12). -/
def Obligations.ReadDataReadsThenWaits : Prop :=
  (∀ (s : State) (v : Byte × Byte) (w : Polls) (rest : List Byte), Quiet s → s.cfg.variant = .bf → w.Valid →
    s.rx = v.1 :: v.2 :: (pairBytes w.all ++ rest) →
    ∃ t u, exec .readData s = .next t ∧ Reaches t u ∧
      u = { (s.afterRead8 true v).afterWait w with rdata := assembled v } ∧
      u.trace = s.trace ++ readDataTrace s.cfg v w) ∧
  ∀ s : State, s.cfg.variant = .fd → exec .readData s = .refused (.absentInFd "readData")

/-- R75 to R82: each of the seven command instructions (CLEAR, HOME, ENTRY_MODE, DISPLAY_CONTROL, FUNCTION_SET,
SET_CGRAM, SET_DDRAM) writes its byte to the instruction register by `doCmd`; the bytes are the formulas of the rules, and 0x28 for
FUNCTION_SET is the model's choice (log 8, PRESUMED). -/
def Obligations.CommandBytesAreIssuedByDoCmd : Prop :=
  ∀ (s : State) (w : Polls) (rest : List Byte), Quiet s → WaitsOk s.cfg [w] → s.rx = waitBytes s.cfg w ++ rest →
    ∀ i b,
      (i = .cmdClear ∧ b = 0x01#8) ∨ (i = .cmdHome ∧ b = 0x02#8) ∨
      (∃ l r, i = .cmdEntryMode l r ∧ b = 0x04#8 ||| (bit l <<< 1) ||| bit r) ∨
      (∃ d c k, i = .cmdDisplayControl d c k ∧ b = 0x08#8 ||| (bit d <<< 2) ||| (bit c <<< 1) ||| bit k) ∨
      (i = .cmdFunctionSet ∧ b = 0x28#8) ∨
      (∃ a : BitVec 6, i = .cmdSetCgram a ∧ b = 0x40#8 ||| a.setWidth 8) ∨
      (∃ a : BitVec 7, i = .cmdSetDdram a ∧ b = 0x80#8 ||| a.setWidth 8) →
      encode i = some (.cmd b) ∧
      ∃ t, exec i s = .next t ∧ Reaches t ((s.afterWrite8 false b).afterWait w)

/-- R84, R124: a data byte is written to the data register by `doData`, unchanged. -/
def Obligations.DataBytesAreIssuedByDoData : Prop :=
  ∀ (s : State) (b : Byte) (w : Polls) (rest : List Byte), Quiet s → WaitsOk s.cfg [w] →
    s.rx = waitBytes s.cfg w ++ rest →
    ∃ t, exec (.data b) s = .next t ∧ Reaches t ((s.afterWrite8 true b).afterWait w)

/-- R83: the two single nibbles are stand-alone `write4` to the instruction register: one Enable pulse each. -/
def Obligations.SingleNibblesAreOneWrite4 : Prop :=
  ∀ s : State, Quiet s →
    (∃ t, exec .initNibble3 s = .next t ∧ Reaches t (s.emit (write4Trace s.cfg false 0x3#4))) ∧
    (∃ t, exec .initNibble2 s = .next t ∧ Reaches t (s.emit (write4Trace s.cfg false 0x2#4))) ∧
    pulses (write4Trace s.cfg false 0x3#4) = 1 ∧ pulses (write4Trace s.cfg false 0x2#4) = 1

-- The host operations (43_init_sequence.md, 44_high_level_ops.md)

/-- R150: `INIT` issues its nine steps in order, the three fixed delays in both variants, and ends with `OK`.
The function set of step 5 is the model's 0x28 (log 8, PRESUMED). -/
def Obligations.InitRunsItsNineSteps : Prop :=
  ∀ (s : State) (w : Fin 6 → Polls) (rest : List Byte), QuietIdle s →
    WaitsOk s.cfg [w 0, w 1, w 2, w 3, w 4, w 5] →
    s.rx = [w 0, w 1, w 2, w 3, w 4, w 5].flatMap (waitBytes s.cfg) ++ rest →
    ∃ t u, exec .opInit s = .next t ∧ Reaches t u ∧ Completed s u (initTrace s.cfg w) [] rest

/-- R160: `CLEAR` is `doCmd(0x01)`, in FD followed by `Delay(T_CLEAR)`. -/
def Obligations.ClearAddsItsDelayInFd : Prop :=
  ∀ (s : State) (w : Polls) (rest : List Byte), QuietIdle s → WaitsOk s.cfg [w] → s.rx = waitBytes s.cfg w ++ rest →
    ∃ t u, exec .opClear s = .next t ∧ Reaches t u ∧ Completed s u (clearTrace s.cfg w) [] rest

/-- R161: `HOME` is `doCmd(0x02)`, with no extended delay in either variant. -/
def Obligations.HomeIsThePlainCommand : Prop :=
  ∀ (s : State) (w : Polls) (rest : List Byte), QuietIdle s → WaitsOk s.cfg [w] → s.rx = waitBytes s.cfg w ++ rest →
    ∃ t u, exec .opHome s = .next t ∧ Reaches t u ∧ Completed s u (doCmdTrace s.cfg 0x02#8 w) [] rest

/-- R163, R78: `ENTRY_MODE` sends `0x04 | l<<1 | s`, two independent bits. -/
def Obligations.EntryModeSendsItsTwoBits : Prop :=
  ∀ (s : State) (l r : Bool) (w : Polls) (rest : List Byte), QuietIdle s → WaitsOk s.cfg [w] →
    s.rx = waitBytes s.cfg w ++ rest →
    ∃ t u, exec (.opEntryMode l r) s = .next t ∧ Reaches t u ∧
      Completed s u (doCmdTrace s.cfg (0x04#8 ||| (bit l <<< 1) ||| bit r) w) [] rest

/-- R162, R79: `DISPLAY_CONTROL` sends `0x08 | d<<2 | c<<1 | b`. -/
def Obligations.DisplayControlSendsItsThreeBits : Prop :=
  ∀ (s : State) (d c b : Bool) (w : Polls) (rest : List Byte), QuietIdle s → WaitsOk s.cfg [w] →
    s.rx = waitBytes s.cfg w ++ rest →
    ∃ t u, exec (.opDisplayControl d c b) s = .next t ∧ Reaches t u ∧
      Completed s u (doCmdTrace s.cfg (0x08#8 ||| (bit d <<< 2) ||| (bit c <<< 1) ||| bit b) w) [] rest

/-- R164, R85, R169: `WRITE` sends `0x80 | (column + line × 0x40)` and then every byte in index order, each complete
before the next; with no bytes it sends the command only. -/
def Obligations.WriteSendsAddressThenBytes : Prop :=
  ∀ (s : State) (line : BitVec 1) (column : BitVec 6) (bytes : List Byte) (w : Polls) (ws : List Polls)
    (rest : List Byte), QuietIdle s → ws.length = bytes.length → WaitsOk s.cfg (w :: ws) →
    s.rx = (w :: ws).flatMap (waitBytes s.cfg) ++ rest →
    ∃ t u, exec (.opWrite line column bytes) s = .next t ∧ Reaches t u ∧
      Completed s u (doCmdTrace s.cfg (addressCommand line column) w ++ dataTrace s.cfg bytes ws) [] rest

/-- R165: in BF `READ` sends the address command and then `length` data reads, each with its busy-wait, and returns
the bytes in the order read. -/
def Obligations.ReadReturnsTheBytesInOrder : Prop :=
  ∀ (s : State) (line : BitVec 1) (column : BitVec 6) (length : Nat) (w : Polls) (vs : List (Byte × Byte))
    (ws : List Polls) (rest : List Byte), QuietIdle s → s.cfg.variant = .bf → vs.length = length →
    ws.length = length → WaitsOk s.cfg (w :: ws) →
    s.rx = pairBytes w.all ++ (vs.zip ws).flatMap (fun x => x.1.1 :: x.1.2 :: pairBytes x.2.all) ++ rest →
    ∃ t u, exec (.opRead line column length) s = .next t ∧ Reaches t u ∧
      Completed s u (doCmdTrace s.cfg (addressCommand line column) w ++ readsTrace s.cfg vs ws)
        (vs.map assembled) rest

/-- R166, R86: a legal `DEFINE_CHAR` sends `0x40 | code × 8` and then its eight rows in order, unmasked. -/
def Obligations.DefineCharSendsEightRows : Prop :=
  ∀ (s : State) (code : BitVec 4) (bitmap : List Byte) (w : Polls) (ws : List Polls) (rest : List Byte),
    QuietIdle s → code.toNat ≤ 7 → bitmap.length = 8 → ws.length = 8 → WaitsOk s.cfg (w :: ws) →
    s.rx = (w :: ws).flatMap (waitBytes s.cfg) ++ rest →
    ∃ t u, exec (.opDefineChar code bitmap) s = .next t ∧ Reaches t u ∧
      Completed s u (doCmdTrace s.cfg (glyphCommand code) w ++ dataTrace s.cfg bitmap ws) [] rest

-- Faults, cancellation, completion (60_exceptions.md)

/-- R181, R89: `InvalidArgument` for `DEFINE_CHAR` with `code > 7` or a bitmap whose length is not 8 (one fault
whichever or both hold) and for a reserved selector, before any bus event. -/
def Obligations.InvalidArgumentBeforeAnyEvent : Prop :=
  ∀ s : State, s.seq = [] →
    (∀ code bitmap, (7 < code.toNat ∨ bitmap.length ≠ 8) →
      ∃ t, exec (.opDefineChar code bitmap) s = .next t ∧ TurnedAway s t .invalidArgument) ∧
    ∀ low, ∃ t, exec (.opReserved low) s = .next t ∧ TurnedAway s t .invalidArgument

/-- R183, R170: `READ` in the FD variant ends at once with `Unsupported`, no bus event and no data. -/
def Obligations.ReadIsUnsupportedInFd : Prop :=
  ∀ (s : State) (line : BitVec 1) (column : BitVec 6) (length : Nat), s.seq = [] → s.cfg.variant = .fd →
    ∃ t, exec (.opRead line column length) s = .next t ∧ TurnedAway s t .unsupported

/-- R182: a `send` or `recv` that fails ends the operation at once, wherever it stands: the failing event is the last,
`TransportFailure` and the transport's report go to the host, and the failed `recv` leaves `BUS`. What `BUS` holds
after a failed `send` is a free value: the statement holds whatever it is. -/
def Obligations.TransportFailureStrikesAtItsEvent : Prop :=
  ∀ (s : State) (m : Micro) (k : List Micro) (r : Report), s.hostNow.reset = none → s.tmr = 0 → s.seq = m :: k →
    s.link.head? = some (some r) →
    (∀ bs, m = .send bs → ∃ t, step s = .next t ∧ Failed s t [.sendFailed bs] r) ∧
    (m = .recv → s.cfg.variant = .bf → ∃ t, step s = .next t ∧ Failed s t [.recvFailed] r ∧ t.bus = s.bus)

/-- R187: at a cancellation point a pending cancel ends the operation: no event, `Cancelled`, `CANCEL_PEND = 0`, idle,
no data; a cancel raised in that step counts. -/
def Obligations.CancelIsTakenBeforeAUnit : Prop :=
  ∀ (s : State) (i : Instr) (k : List Micro), s.hostNow.reset = none → s.tmr = 0 → s.seq = .unit i :: k →
    (s.cancelPend = true ∨ s.hostNow.cancel = true) →
    ∃ t, step s = .next t ∧ t.seq = [] ∧ t.status = .cancelled ∧ t.cancelPend = false ∧ t.rbuf = [] ∧
      t.trace = s.trace ∧ t.bus = s.bus ∧
      t.responses = s.responses ++ [{ status := .cancelled, data := [], report := none }]

/-- R185, R186, R141: an operation is cancelled only at a cancellation point: not while the timer runs, not inside a
critical section, not after the last unit. -/
def Obligations.CancelNeverSplitsAUnit : Prop :=
  ∀ (s t : State) (x : Response), step s = .next t → s.hostNow.reset = none →
    t.responses = s.responses ++ [x] → x.status = .cancelled → s.tmr = 0 ∧ ∃ i k, s.seq = .unit i :: k

/-- R184: `cancel` raised during an operation is remembered until the operation ends: raised in this step or pending
from an earlier one, it is pending after every step that leaves the operation in progress. Raised while the engine is
idle with no request before it, it has no effect. -/
def Obligations.CancelIsLatchedOnlyWhenBusy : Prop :=
  (∀ s t : State, s.hostNow.reset = none → (s.cancelPend = true ∨ s.hostNow.cancel = true) → s.seq ≠ [] →
    step s = .next t → t.seq ≠ [] → t.cancelPend = true) ∧
  ∀ s : State, s.hostNow.reset = none → s.hostNow.present = none → s.seq = [] → s.tmr = 0 → s.req = none →
    step s = .next { s with host := s.host.tail }

/-- R191 (1): at acceptance the argument checks come first: a request that fails one ends with its status although a
cancel is raised in that step, and the cancel is dropped; a request that fails none is in progress, the cancel pending.
The last is the model's choice (log 15, DEDUCED): R191 (1) speaks of a failing check only. -/
def Obligations.ArgumentFaultsBeatACancel : Prop :=
  ∀ (s : State) (r : Request) (i : Instr), s.hostNow.reset = none → s.hostNow.present = none → s.seq = [] →
    s.tmr = 0 → s.cancelPend = false → s.req = some r → decode (.request r) = .ok i → i.wf s.cfg = true →
    ∃ t, step s = .next t ∧ t.req = none ∧ t.trace = s.trace ∧
      (∀ e, argumentFault s.cfg i = some e → t.seq = [] ∧ t.status = e ∧ t.cancelPend = false ∧
        t.responses = s.responses ++ [{ status := e, data := [], report := none }]) ∧
      (argumentFault s.cfg i = none → t.seq ≠ [] ∧ t.cancelPend = s.hostNow.cancel ∧ t.responses = s.responses)

/-- R180: an operation that ends gives exactly one response, whose status `STATUS` takes, and only an operation that
ends gives one; a response that is not `OK` carries no data. -/
def Obligations.OneResponsePerOperation : Prop :=
  ∀ s t : State, Inv s → step s = .next t → s.hostNow.reset = none →
    (t.responses = s.responses ∧ t.status = s.status ∧ (s.seq ≠ [] → t.seq ≠ [])) ∨
    ∃ x, t.responses = s.responses ++ [x] ∧ t.seq = [] ∧ t.cancelPend = false ∧ t.status = x.status ∧
      (x.status ≠ .ok → x.data = [])

/-- R24: the operand latches are "constant until the operation ends": no step of an operation in progress writes
them, the step that ends it neither. -/
def Obligations.OperandLatchesAreConstant : Prop :=
  ∀ s t : State, Inv s → s.seq ≠ [] → s.hostNow.reset = none → step s = .next t →
    t.op = s.op ∧ t.aLine = s.aLine ∧ t.aCol = s.aCol ∧ t.aFlags = s.aFlags ∧ t.aCode = s.aCode ∧
    t.aLen = s.aLen ∧ t.aBytes = s.aBytes

/-- R171, R203: only `READ` returns data: a response with data is an `OK` of a `READ`, and the data are `RBUF`. -/
def Obligations.OnlyReadReturnsData : Prop :=
  ∀ (s t : State) (x : Response), step s = .next t → s.hostNow.reset = none →
    t.responses = s.responses ++ [x] → x.data ≠ [] → s.op = 0x6#4 ∧ x.status = .ok ∧ x.data = s.rbuf ∧ x.report = none

/-- R33, R199: a request on the channel has no effect on an operation in progress: with another request there, or
none, the engine makes the same step, and the request still stands. -/
def Obligations.WaitingRequestHasNoEffect : Prop :=
  ∀ (s : State) (r : Option Request), s.seq ≠ [] → s.hostNow.reset = none → s.hostNow.present = none →
    step { s with req := r } = onNext (fun t => { t with req := r }) (step s)

/-- R33: a host operation run on a busy engine is not accepted and has no effect: INIT, CLEAR, HOME, ENTRY_MODE,
DISPLAY_CONTROL, WRITE, READ, DEFINE_CHAR, RESERVED. -/
def Obligations.BusyEngineAcceptsNothing : Prop :=
  ∀ s : State, s.seq ≠ [] →
    exec .opInit s = .next s ∧ exec .opClear s = .next s ∧ exec .opHome s = .next s ∧
    (∀ l r, exec (.opEntryMode l r) s = .next s) ∧ (∀ d c b, exec (.opDisplayControl d c b) s = .next s) ∧
    (∀ l c bs, exec (.opWrite l c bs) s = .next s) ∧ (∀ l c n, exec (.opRead l c n) s = .next s) ∧
    (∀ c bm, exec (.opDefineChar c bm) s = .next s) ∧ ∀ low, exec (.opReserved low) s = .next s

-- Reset (10_state.md section 7, 70_reset_and_hazards.md section 1)

/-- R37: what reset leaves, for every configuration, as far as the spec gives it; reset issues no event, and the
engine does not run `INIT` by itself: with no request it stays as it is. -/
def Obligations.ResetLeavesTheSpecifiedState : Prop :=
  ∀ cfg : Config,
    (State.resetWith cfg).seq = [] ∧ (State.resetWith cfg).bus.e = false ∧
    dataOutputEnable (State.resetWith cfg).bus = false ∧ (State.resetWith cfg).bus.rs = false ∧
    (cfg.variant = .bf → (State.resetWith cfg).bus.rw = some false) ∧
    (cfg.variant = .fd → (State.resetWith cfg).bus.rw = none) ∧
    (State.resetWith cfg).tmr = 0 ∧ (State.resetWith cfg).cancelPend = false ∧
    statusCode (State.resetWith cfg).status = 0#3 ∧ (State.resetWith cfg).rbuf = [] ∧
    (State.resetWith cfg).trace = [] ∧
    ∀ n, run n (State.resetWith cfg) = .next (State.resetWith cfg)

/-- R210, R211: reset in any state, in the middle of an operation too: the engine's state takes its reset values, the
new configuration is sampled, no further event, no response. -/
def Obligations.ResetAbandonsTheOperation : Prop :=
  ∀ (s : State) (cfg : Config), s.hostNow.reset = some cfg →
    ∃ t, step s = .next t ∧ t.cfg = cfg ∧ t.seq = [] ∧ t.bus.e = false ∧ t.bus.d = none ∧ t.bus.rs = false ∧
      (cfg.variant = .bf → t.bus.rw = some false) ∧ t.tmr = 0 ∧ t.cancelPend = false ∧ t.status = .ok ∧
      t.rbuf = [] ∧ t.trace = [] ∧ t.responses = s.responses

-- The machine as a whole

/-- An idle engine with a request on its channel (presented now or waiting) runs the decoded instruction: the host's
input is consumed, the request leaves the channel, `exec` runs, and a cancel raised in that step is latched if an
operation is then in progress. Nothing else is added. The model's choice: the latching (log 15, DEDUCED), and that a
request presented now stands in place of a waiting one (log 25, DESIGN CHOICE). -/
def Obligations.StepRunsTheRequest : Prop :=
  ∀ (s : State) (r : Request) (i : Instr), s.hostNow.reset = none → s.seq = [] → s.tmr = 0 →
    s.hostNow.present.or s.req = some r → decode (.request r) = .ok i → i.wf s.cfg = true →
    step s = onNext (fun t => { t with cancelPend := t.cancelPend || (s.hostNow.cancel && t.busy) })
      (exec i { s with host := s.host.tail, req := none })

/-- U3: a request that does not fit the engine's ports is refused at its acceptance, by name, and no other request is:
a stream whose length is not that of its length port, then a length above `LEN_MAX`. That these refusals are the form of
"not expressible at the engine's ports" is the model's choice (log 17, DESIGN CHOICE), and so is which of two requests
is accepted (log 25, DESIGN CHOICE). -/
def Obligations.AcceptanceRefusesWhatThePortsExclude : Prop :=
  ∀ (s : State) (r : Request), s.hostNow.reset = none → s.seq = [] → s.tmr = 0 →
    s.hostNow.present.or s.req = some r →
    (StreamMisfits r → step s = .refused (.malformedRequest .streamLength)) ∧
    (¬StreamMisfits r → LengthTooLong s.cfg r → step s = .refused .operandOutOfRange) ∧
    (¬StreamMisfits r → ¬LengthTooLong s.cfg r → ∃ t, step s = .next t)

/-- A busy engine runs the instruction its sequencer has reached, with the rest of `SEQ` after it, unless the host
resets, the timer runs, or a cancel is taken before a unit. The host's input is consumed first: a request presented now
stands in place of a waiting one (the model's choice, log 25, DESIGN CHOICE). -/
def Obligations.StepRunsThePosition : Prop :=
  ∀ (s : State) (i : Instr) (k : List Micro), s.hostNow.reset = none → s.tmr = 0 →
    (s.seq = .run i :: k → step s = exec i { s.afterHost with seq := k }) ∧
    (s.seq = .unit i :: k → s.cancelPend = false → s.hostNow.cancel = false →
      step s = exec i { s.afterHost with seq := k })

/-- R138, R141: while `TMR` is not zero a step is one tick: no event, the sequencer holds, and a cancel is latched but
not taken. A request presented now stands in place of a waiting one (the model's choice, log 25, DESIGN CHOICE). -/
def Obligations.RunningTimerHoldsEverything : Prop :=
  ∀ s : State, s.hostNow.reset = none → s.tmr ≠ 0 →
    step s = .next { s with
      tmr := s.tmr - 1
      host := s.host.tail
      req := s.hostNow.present.or s.req
      cancelPend := s.cancelPend || (s.hostNow.cancel && s.busy) }

/-- R23: no operation writes the configuration; only a reset changes it. -/
def Obligations.ConfigurationIsConstant : Prop :=
  ∀ s t : State, step s = .next t → s.hostNow.reset = none → t.cfg = s.cfg

/-- R58, R60: the engine issues its events one after another: a step adds at most one event at the end of the trace
and takes none back. -/
def Obligations.TraceGrowsByOneEvent : Prop :=
  ∀ s t : State, step s = .next t → s.hostNow.reset = none →
    t.trace = s.trace ∨ ∃ e, t.trace = s.trace ++ [e]

/-- R21, R30: no rule reads `BUS` or `STATUS`: with other values there a step does the same, apart from them. -/
def Obligations.BusAndStatusAreNotRead : Prop :=
  ∀ (s : State) (b b' : BusState) (e e' : Status),
    onNext (fun t => { t with bus := b', status := e' }) (step { s with bus := b, status := e }) =
      onNext (fun t => { t with bus := b', status := e' }) (step s)

/-- The frame of the instructions that are no host operation: an event instruction touches nothing but the
sequencer's own registers, and of those only the ones its rule names: `BYTE` (write8), `PHASE` (write8, read8), `BF`
(STATUS), the trace and `TMR` (delay). -/
def Obligations.TransactionFrame : Prop :=
  ∀ (i : Instr) (s t : State), (∀ r, encode i ≠ some (.request r)) → exec i s = .next t →
    t = { s with seq := t.seq, byte := t.byte, phase := t.phase, bf := t.bf, trace := t.trace, tmr := t.tmr } ∧
    ((∀ rs b, i ≠ .write8 rs b) → t.byte = s.byte) ∧
    ((∀ rs b, i ≠ .write8 rs b) → (∀ rs, i ≠ .read8 rs) → t.phase = s.phase) ∧
    ((∀ b g, i ≠ .status b g) → t.bf = s.bf) ∧
    ((∀ n, i ≠ .delay n) → t.trace = s.trace ∧ t.tmr = s.tmr) ∧
    ∃ ms, t.seq = ms ++ s.seq

/-- The frame of the host operations (R24, R190): acceptance or a turned-away request writes the operand latches,
`SEQ`, and with an argument fault `STATUS`, `CANCEL_PEND` and the response; nothing on the bus side. All seven latches
take the request's fields; that the unused ones do too is the model's choice (log 14, DESIGN CHOICE). -/
def Obligations.HostOperationFrame : Prop :=
  ∀ (i : Instr) (r : Request) (s t : State), encode i = some (.request r) → exec i s = .next t →
    t.cfg = s.cfg ∧ t.bus = s.bus ∧ t.byte = s.byte ∧ t.phase = s.phase ∧ t.idx = s.idx ∧ t.tmr = s.tmr ∧
    t.bf = s.bf ∧ t.rdata = s.rdata ∧ t.req = s.req ∧ t.trace = s.trace ∧ t.host = s.host ∧ t.link = s.link ∧
    t.rx = s.rx ∧ t.draws = s.draws ∧
    (argumentFault s.cfg i = none → t.status = s.status ∧ t.cancelPend = s.cancelPend ∧ t.responses = s.responses) ∧
    (s.seq = [] → t.op = r.opsel ∧ t.aLine = r.line ∧ t.aCol = r.column ∧ t.aFlags = r.flags ∧ t.aCode = r.code ∧
      t.aLen = (if r.opsel = 0x7#4 then r.blen.toNat else r.len) ∧ t.aBytes = r.stream)

-- The invariant

/-- The invariant holds after reset, under every configuration R5 admits and whatever the outside world will do. -/
def Obligations.InvariantHoldsAtReset : Prop :=
  (∀ (cfg : Config) (host : List HostInput) (link : List (Option Report)) (rx : List Byte) (req : Option Request),
    cfg.wf = true → (∀ h ∈ host, ∀ c, h.reset = some c → c.wf = true) →
    Inv { State.resetWith cfg with host := host, link := link, rx := rx, req := req }) ∧
  Inv State.reset

/-- Every step keeps the invariant, from every state that has it: whatever instruction runs, whatever the host does,
whether the transport fails or not, and whatever the controller answers. -/
def Obligations.EveryStepKeepsTheInvariant : Prop :=
  ∀ s t : State, Inv s → step s = .next t → Inv t

/-- Nothing stops an engine in the invariant: a step without reset answers a next state, unless an idle engine finds a
request on its channel that does not fit its ports (R33, U3). So no FD engine comes to a primitive it lacks (R131), and
the refusals of log 18 (DEDUCED) are out of reach. Which of two requests stands on the channel is the model's choice
(log 25, DESIGN CHOICE). -/
def Obligations.StepAnswersANextState : Prop :=
  ∀ s : State, Inv s → s.hostNow.reset = none →
    (s.seq = [] → ∀ r, s.hostNow.present.or s.req = some r →
      ∃ i, decode (.request r) = .ok i ∧ i.wf s.cfg = true) →
    ∃ t, step s = .next t

/-- R104: "Enable low and data lines released" whenever the engine is idle, provided no transport failure is in the
trace; cancellations are allowed anywhere. -/
def Obligations.IdleBusIsReleased : Prop :=
  ∀ (s t : State) (n : Nat), Inv s → run n s = .next t → t.seq = [] → NoFailure t.trace → Released t.bus

/-- R105: every pulse of Enable is framed: a BusState with Enable high stands between two with Enable low and the same
`rs`, `rw` and data (the second may still be owed), in every trace without a transport failure. -/
def Obligations.EnablePulsesAreFramed : Prop :=
  ∀ (s t : State) (n : Nat), Inv s → run n s = .next t → NoFailure t.trace →
    List.IsChain EdgeOk (resetBus t.cfg :: sends t.trace)

/-- R131: no trace of an FD engine holds a `Recv` or a BusState with an `rw` field. -/
def Obligations.FdTraceHasNoReads : Prop :=
  ∀ (s t : State) (n : Nat), Inv s → run n s = .next t → t.cfg.variant = .fd →
    ∀ e ∈ t.trace, (∀ v, e ≠ .recv v) ∧ e ≠ .recvFailed ∧
      ∀ bs, e = .send bs ∨ e = .sendFailed bs → bs.rw = none

/-- R91, R92: the engine writes to the instruction register no byte that R91 excludes, and no single nibble but 3
and 2. `FUNCTION_SET_BYTE` is the model's 0x28 (log 8, PRESUMED). -/
def Obligations.OnlyListedCommandsAreEmitted : Prop :=
  ∀ (s t : State) (n : Nat), Inv s → run n s = .next t →
    (∀ b k, t.seq = .unit (.write8 false b) :: k →
      b.toNat ≠ 0x00 ∧ b.toNat ≠ 0x03 ∧ ¬(0x10 ≤ b.toNat ∧ b.toNat ≤ 0x1F) ∧
      ¬(0x20 ≤ b.toNat ∧ b.toNat ≤ 0x3F ∧ b.toNat ≠ 0x28) ∧
      ¬(0x40 ≤ b.toNat ∧ b.toNat ≤ 0x7F ∧ b.toNat % 8 ≠ 0)) ∧
    ∀ rs x k, t.seq = .unit (.write4 rs x) :: k → rs = false ∧ (x = 0x3#4 ∨ x = 0x2#4)

/-- R140: the timer never wraps: its count always fits `TMR_WIDTH` bits, the least width that holds the longest
delay's count. -/
def Obligations.TimerNeverWraps : Prop :=
  ∀ (s t : State) (n : Nat), Inv s → run n s = .next t →
    t.tmr < 2 ^ timerWidth t.cfg ∧
    ∀ w, (∀ d ∈ [t.cfg.tINIT1, t.cfg.tCLEAR, t.cfg.tINIT2, t.cfg.tEXEC, t.cfg.tINIT3, t.cfg.tAS, t.cfg.tPW,
      t.cfg.tCYCR, t.cfg.tDDR, t.cfg.tRDH], ticksFor t.cfg d < 2 ^ w) ↔ timerWidth t.cfg ≤ w

/-- R217, R126: outside the single nibbles of `INIT` every step keeps the parity of the Enable pulses issued and owed:
a transaction has an even number, a cancel takes away none that is half done. -/
def Obligations.NibblePhaseIsKept : Prop :=
  ∀ s t : State, Inv s → step s = .next t → s.hostNow.reset = none → NoFailure t.trace →
    NoSingleNibble s.seq → NoSingleNibble t.seq → t.pulsesOwed % 2 = s.pulsesOwed % 2

/-- R22: nothing an idle engine holds influences the next operation but the configuration: two idle engines with the
same configuration, before the same outside world, add the same events and give the same responses, whatever their
latches, `BYTE`, `PHASE`, `IDX`, `BF`, `RBUF`, `BUS`, `STATUS` and earlier traces are. -/
def Obligations.IdleEngineHasNoMemory : Prop :=
  ∀ (s s' : State) (n : Nat) (t : State), s.seq = [] → s'.seq = [] → s.tmr = 0 → s'.tmr = 0 →
    s.cancelPend = false → s'.cancelPend = false → s'.cfg = s.cfg → s'.req = s.req → s'.host = s.host →
    s'.link = s.link → s'.rx = s.rx → s'.draws = s.draws → (∀ h ∈ s.host, h.reset = none) → run n s = .next t →
    ∃ t' es rs, run n s' = .next t' ∧ t.trace = s.trace ++ es ∧ t'.trace = s'.trace ++ es ∧
      t.responses = s.responses ++ rs ∧ t'.responses = s'.responses ++ rs ∧ t'.seq = t.seq
end

