-- ==== Sys2Proof/Laws/State.lean ====
section
/-! SUPPORT. One lemma per field per named update of the state, true by rfl, for simp: no later proof unfolds a record update. -/

namespace Sys2Proof.Machine

open Sys2Proof

-- State.goto
@[simp] theorem State.goto_cfg (ms : List Micro) (s : State) : (s.goto ms).cfg = s.cfg := rfl
@[simp] theorem State.goto_bus (ms : List Micro) (s : State) : (s.goto ms).bus = s.bus := rfl
@[simp] theorem State.goto_seq (ms : List Micro) (s : State) : (s.goto ms).seq = ms := rfl
@[simp] theorem State.goto_op (ms : List Micro) (s : State) : (s.goto ms).op = s.op := rfl
@[simp] theorem State.goto_aLine (ms : List Micro) (s : State) : (s.goto ms).aLine = s.aLine := rfl
@[simp] theorem State.goto_aCol (ms : List Micro) (s : State) : (s.goto ms).aCol = s.aCol := rfl
@[simp] theorem State.goto_aFlags (ms : List Micro) (s : State) : (s.goto ms).aFlags = s.aFlags := rfl
@[simp] theorem State.goto_aCode (ms : List Micro) (s : State) : (s.goto ms).aCode = s.aCode := rfl
@[simp] theorem State.goto_aLen (ms : List Micro) (s : State) : (s.goto ms).aLen = s.aLen := rfl
@[simp] theorem State.goto_byte (ms : List Micro) (s : State) : (s.goto ms).byte = s.byte := rfl
@[simp] theorem State.goto_phase (ms : List Micro) (s : State) : (s.goto ms).phase = s.phase := rfl
@[simp] theorem State.goto_idx (ms : List Micro) (s : State) : (s.goto ms).idx = s.idx := rfl
@[simp] theorem State.goto_tmr (ms : List Micro) (s : State) : (s.goto ms).tmr = s.tmr := rfl
@[simp] theorem State.goto_bf (ms : List Micro) (s : State) : (s.goto ms).bf = s.bf := rfl
@[simp] theorem State.goto_status (ms : List Micro) (s : State) : (s.goto ms).status = s.status := rfl
@[simp] theorem State.goto_cancelPend (ms : List Micro) (s : State) : (s.goto ms).cancelPend = s.cancelPend := rfl
@[simp] theorem State.goto_rbuf (ms : List Micro) (s : State) : (s.goto ms).rbuf = s.rbuf := rfl
@[simp] theorem State.goto_rdata (ms : List Micro) (s : State) : (s.goto ms).rdata = s.rdata := rfl
@[simp] theorem State.goto_req (ms : List Micro) (s : State) : (s.goto ms).req = s.req := rfl
@[simp] theorem State.goto_aBytes (ms : List Micro) (s : State) : (s.goto ms).aBytes = s.aBytes := rfl
@[simp] theorem State.goto_responses (ms : List Micro) (s : State) : (s.goto ms).responses = s.responses := rfl
@[simp] theorem State.goto_trace (ms : List Micro) (s : State) : (s.goto ms).trace = s.trace := rfl
@[simp] theorem State.goto_host (ms : List Micro) (s : State) : (s.goto ms).host = s.host := rfl
@[simp] theorem State.goto_link (ms : List Micro) (s : State) : (s.goto ms).link = s.link := rfl
@[simp] theorem State.goto_rx (ms : List Micro) (s : State) : (s.goto ms).rx = s.rx := rfl
@[simp] theorem State.goto_draws (ms : List Micro) (s : State) : (s.goto ms).draws = s.draws := rfl

-- State.push
@[simp] theorem State.push_cfg (ms : List Micro) (s : State) : (s.push ms).cfg = s.cfg := rfl
@[simp] theorem State.push_bus (ms : List Micro) (s : State) : (s.push ms).bus = s.bus := rfl
@[simp] theorem State.push_seq (ms : List Micro) (s : State) : (s.push ms).seq = ms ++ s.seq := rfl
@[simp] theorem State.push_op (ms : List Micro) (s : State) : (s.push ms).op = s.op := rfl
@[simp] theorem State.push_aLine (ms : List Micro) (s : State) : (s.push ms).aLine = s.aLine := rfl
@[simp] theorem State.push_aCol (ms : List Micro) (s : State) : (s.push ms).aCol = s.aCol := rfl
@[simp] theorem State.push_aFlags (ms : List Micro) (s : State) : (s.push ms).aFlags = s.aFlags := rfl
@[simp] theorem State.push_aCode (ms : List Micro) (s : State) : (s.push ms).aCode = s.aCode := rfl
@[simp] theorem State.push_aLen (ms : List Micro) (s : State) : (s.push ms).aLen = s.aLen := rfl
@[simp] theorem State.push_byte (ms : List Micro) (s : State) : (s.push ms).byte = s.byte := rfl
@[simp] theorem State.push_phase (ms : List Micro) (s : State) : (s.push ms).phase = s.phase := rfl
@[simp] theorem State.push_idx (ms : List Micro) (s : State) : (s.push ms).idx = s.idx := rfl
@[simp] theorem State.push_tmr (ms : List Micro) (s : State) : (s.push ms).tmr = s.tmr := rfl
@[simp] theorem State.push_bf (ms : List Micro) (s : State) : (s.push ms).bf = s.bf := rfl
@[simp] theorem State.push_status (ms : List Micro) (s : State) : (s.push ms).status = s.status := rfl
@[simp] theorem State.push_cancelPend (ms : List Micro) (s : State) : (s.push ms).cancelPend = s.cancelPend := rfl
@[simp] theorem State.push_rbuf (ms : List Micro) (s : State) : (s.push ms).rbuf = s.rbuf := rfl
@[simp] theorem State.push_rdata (ms : List Micro) (s : State) : (s.push ms).rdata = s.rdata := rfl
@[simp] theorem State.push_req (ms : List Micro) (s : State) : (s.push ms).req = s.req := rfl
@[simp] theorem State.push_aBytes (ms : List Micro) (s : State) : (s.push ms).aBytes = s.aBytes := rfl
@[simp] theorem State.push_responses (ms : List Micro) (s : State) : (s.push ms).responses = s.responses := rfl
@[simp] theorem State.push_trace (ms : List Micro) (s : State) : (s.push ms).trace = s.trace := rfl
@[simp] theorem State.push_host (ms : List Micro) (s : State) : (s.push ms).host = s.host := rfl
@[simp] theorem State.push_link (ms : List Micro) (s : State) : (s.push ms).link = s.link := rfl
@[simp] theorem State.push_rx (ms : List Micro) (s : State) : (s.push ms).rx = s.rx := rfl
@[simp] theorem State.push_draws (ms : List Micro) (s : State) : (s.push ms).draws = s.draws := rfl

-- State.raise
@[simp] theorem State.raise_cfg (e : Status) (r : Option Report) (s : State) : (s.raise e r).cfg = s.cfg := rfl
@[simp] theorem State.raise_bus (e : Status) (r : Option Report) (s : State) : (s.raise e r).bus = s.bus := rfl
@[simp] theorem State.raise_seq (e : Status) (r : Option Report) (s : State) : (s.raise e r).seq = [] := rfl
@[simp] theorem State.raise_op (e : Status) (r : Option Report) (s : State) : (s.raise e r).op = s.op := rfl
@[simp] theorem State.raise_aLine (e : Status) (r : Option Report) (s : State) : (s.raise e r).aLine = s.aLine := rfl
@[simp] theorem State.raise_aCol (e : Status) (r : Option Report) (s : State) : (s.raise e r).aCol = s.aCol := rfl
@[simp] theorem State.raise_aFlags (e : Status) (r : Option Report) (s : State) : (s.raise e r).aFlags = s.aFlags := rfl
@[simp] theorem State.raise_aCode (e : Status) (r : Option Report) (s : State) : (s.raise e r).aCode = s.aCode := rfl
@[simp] theorem State.raise_aLen (e : Status) (r : Option Report) (s : State) : (s.raise e r).aLen = s.aLen := rfl
@[simp] theorem State.raise_byte (e : Status) (r : Option Report) (s : State) : (s.raise e r).byte = s.byte := rfl
@[simp] theorem State.raise_phase (e : Status) (r : Option Report) (s : State) : (s.raise e r).phase = s.phase := rfl
@[simp] theorem State.raise_idx (e : Status) (r : Option Report) (s : State) : (s.raise e r).idx = s.idx := rfl
@[simp] theorem State.raise_tmr (e : Status) (r : Option Report) (s : State) : (s.raise e r).tmr = s.tmr := rfl
@[simp] theorem State.raise_bf (e : Status) (r : Option Report) (s : State) : (s.raise e r).bf = s.bf := rfl
@[simp] theorem State.raise_status (e : Status) (r : Option Report) (s : State) : (s.raise e r).status = e := rfl
@[simp] theorem State.raise_cancelPend (e : Status) (r : Option Report) (s : State) : (s.raise e r).cancelPend = false := rfl
@[simp] theorem State.raise_rbuf (e : Status) (r : Option Report) (s : State) : (s.raise e r).rbuf = [] := rfl
@[simp] theorem State.raise_rdata (e : Status) (r : Option Report) (s : State) : (s.raise e r).rdata = s.rdata := rfl
@[simp] theorem State.raise_req (e : Status) (r : Option Report) (s : State) : (s.raise e r).req = s.req := rfl
@[simp] theorem State.raise_aBytes (e : Status) (r : Option Report) (s : State) : (s.raise e r).aBytes = s.aBytes := rfl
@[simp] theorem State.raise_responses (e : Status) (r : Option Report) (s : State) : (s.raise e r).responses = s.responses ++ [{ status := e, data := [], report := r }] := rfl
@[simp] theorem State.raise_trace (e : Status) (r : Option Report) (s : State) : (s.raise e r).trace = s.trace := rfl
@[simp] theorem State.raise_host (e : Status) (r : Option Report) (s : State) : (s.raise e r).host = s.host := rfl
@[simp] theorem State.raise_link (e : Status) (r : Option Report) (s : State) : (s.raise e r).link = s.link := rfl
@[simp] theorem State.raise_rx (e : Status) (r : Option Report) (s : State) : (s.raise e r).rx = s.rx := rfl
@[simp] theorem State.raise_draws (e : Status) (r : Option Report) (s : State) : (s.raise e r).draws = s.draws := rfl

-- State.takeCancel
@[simp] theorem State.takeCancel_cfg (s : State) : (s.takeCancel).cfg = s.cfg := rfl
@[simp] theorem State.takeCancel_bus (s : State) : (s.takeCancel).bus = s.bus := rfl
@[simp] theorem State.takeCancel_seq (s : State) : (s.takeCancel).seq = [] := rfl
@[simp] theorem State.takeCancel_op (s : State) : (s.takeCancel).op = s.op := rfl
@[simp] theorem State.takeCancel_aLine (s : State) : (s.takeCancel).aLine = s.aLine := rfl
@[simp] theorem State.takeCancel_aCol (s : State) : (s.takeCancel).aCol = s.aCol := rfl
@[simp] theorem State.takeCancel_aFlags (s : State) : (s.takeCancel).aFlags = s.aFlags := rfl
@[simp] theorem State.takeCancel_aCode (s : State) : (s.takeCancel).aCode = s.aCode := rfl
@[simp] theorem State.takeCancel_aLen (s : State) : (s.takeCancel).aLen = s.aLen := rfl
@[simp] theorem State.takeCancel_byte (s : State) : (s.takeCancel).byte = s.byte := rfl
@[simp] theorem State.takeCancel_phase (s : State) : (s.takeCancel).phase = s.phase := rfl
@[simp] theorem State.takeCancel_idx (s : State) : (s.takeCancel).idx = s.idx := rfl
@[simp] theorem State.takeCancel_tmr (s : State) : (s.takeCancel).tmr = s.tmr := rfl
@[simp] theorem State.takeCancel_bf (s : State) : (s.takeCancel).bf = s.bf := rfl
@[simp] theorem State.takeCancel_status (s : State) : (s.takeCancel).status = .cancelled := rfl
@[simp] theorem State.takeCancel_cancelPend (s : State) : (s.takeCancel).cancelPend = false := rfl
@[simp] theorem State.takeCancel_rbuf (s : State) : (s.takeCancel).rbuf = [] := rfl
@[simp] theorem State.takeCancel_rdata (s : State) : (s.takeCancel).rdata = s.rdata := rfl
@[simp] theorem State.takeCancel_req (s : State) : (s.takeCancel).req = s.req := rfl
@[simp] theorem State.takeCancel_aBytes (s : State) : (s.takeCancel).aBytes = s.aBytes := rfl
@[simp] theorem State.takeCancel_responses (s : State) : (s.takeCancel).responses = s.responses ++ [{ status := .cancelled, data := [], report := none }] := rfl
@[simp] theorem State.takeCancel_trace (s : State) : (s.takeCancel).trace = s.trace := rfl
@[simp] theorem State.takeCancel_host (s : State) : (s.takeCancel).host = s.host := rfl
@[simp] theorem State.takeCancel_link (s : State) : (s.takeCancel).link = s.link := rfl
@[simp] theorem State.takeCancel_rx (s : State) : (s.takeCancel).rx = s.rx := rfl
@[simp] theorem State.takeCancel_draws (s : State) : (s.takeCancel).draws = s.draws := rfl

-- State.complete
@[simp] theorem State.complete_cfg (s : State) : (s.complete).cfg = s.cfg := rfl
@[simp] theorem State.complete_bus (s : State) : (s.complete).bus = s.bus := rfl
@[simp] theorem State.complete_seq (s : State) : (s.complete).seq = [] := rfl
@[simp] theorem State.complete_op (s : State) : (s.complete).op = s.op := rfl
@[simp] theorem State.complete_aLine (s : State) : (s.complete).aLine = s.aLine := rfl
@[simp] theorem State.complete_aCol (s : State) : (s.complete).aCol = s.aCol := rfl
@[simp] theorem State.complete_aFlags (s : State) : (s.complete).aFlags = s.aFlags := rfl
@[simp] theorem State.complete_aCode (s : State) : (s.complete).aCode = s.aCode := rfl
@[simp] theorem State.complete_aLen (s : State) : (s.complete).aLen = s.aLen := rfl
@[simp] theorem State.complete_byte (s : State) : (s.complete).byte = s.byte := rfl
@[simp] theorem State.complete_phase (s : State) : (s.complete).phase = s.phase := rfl
@[simp] theorem State.complete_idx (s : State) : (s.complete).idx = s.idx := rfl
@[simp] theorem State.complete_tmr (s : State) : (s.complete).tmr = s.tmr := rfl
@[simp] theorem State.complete_bf (s : State) : (s.complete).bf = s.bf := rfl
@[simp] theorem State.complete_status (s : State) : (s.complete).status = .ok := rfl
@[simp] theorem State.complete_cancelPend (s : State) : (s.complete).cancelPend = false := rfl
@[simp] theorem State.complete_rbuf (s : State) : (s.complete).rbuf = s.rbuf := rfl
@[simp] theorem State.complete_rdata (s : State) : (s.complete).rdata = s.rdata := rfl
@[simp] theorem State.complete_req (s : State) : (s.complete).req = s.req := rfl
@[simp] theorem State.complete_aBytes (s : State) : (s.complete).aBytes = s.aBytes := rfl
@[simp] theorem State.complete_responses (s : State) : (s.complete).responses = s.responses ++ [{ status := .ok, data := s.result, report := none }] := rfl
@[simp] theorem State.complete_trace (s : State) : (s.complete).trace = s.trace := rfl
@[simp] theorem State.complete_host (s : State) : (s.complete).host = s.host := rfl
@[simp] theorem State.complete_link (s : State) : (s.complete).link = s.link := rfl
@[simp] theorem State.complete_rx (s : State) : (s.complete).rx = s.rx := rfl
@[simp] theorem State.complete_draws (s : State) : (s.complete).draws = s.draws := rfl

-- State.sendOk
@[simp] theorem State.sendOk_cfg (bs : BusState) (s : State) : (s.sendOk bs).cfg = s.cfg := rfl
@[simp] theorem State.sendOk_bus (bs : BusState) (s : State) : (s.sendOk bs).bus = bs := rfl
@[simp] theorem State.sendOk_seq (bs : BusState) (s : State) : (s.sendOk bs).seq = s.seq := rfl
@[simp] theorem State.sendOk_op (bs : BusState) (s : State) : (s.sendOk bs).op = s.op := rfl
@[simp] theorem State.sendOk_aLine (bs : BusState) (s : State) : (s.sendOk bs).aLine = s.aLine := rfl
@[simp] theorem State.sendOk_aCol (bs : BusState) (s : State) : (s.sendOk bs).aCol = s.aCol := rfl
@[simp] theorem State.sendOk_aFlags (bs : BusState) (s : State) : (s.sendOk bs).aFlags = s.aFlags := rfl
@[simp] theorem State.sendOk_aCode (bs : BusState) (s : State) : (s.sendOk bs).aCode = s.aCode := rfl
@[simp] theorem State.sendOk_aLen (bs : BusState) (s : State) : (s.sendOk bs).aLen = s.aLen := rfl
@[simp] theorem State.sendOk_byte (bs : BusState) (s : State) : (s.sendOk bs).byte = s.byte := rfl
@[simp] theorem State.sendOk_phase (bs : BusState) (s : State) : (s.sendOk bs).phase = s.phase := rfl
@[simp] theorem State.sendOk_idx (bs : BusState) (s : State) : (s.sendOk bs).idx = s.idx := rfl
@[simp] theorem State.sendOk_tmr (bs : BusState) (s : State) : (s.sendOk bs).tmr = s.tmr := rfl
@[simp] theorem State.sendOk_bf (bs : BusState) (s : State) : (s.sendOk bs).bf = s.bf := rfl
@[simp] theorem State.sendOk_status (bs : BusState) (s : State) : (s.sendOk bs).status = s.status := rfl
@[simp] theorem State.sendOk_cancelPend (bs : BusState) (s : State) : (s.sendOk bs).cancelPend = s.cancelPend := rfl
@[simp] theorem State.sendOk_rbuf (bs : BusState) (s : State) : (s.sendOk bs).rbuf = s.rbuf := rfl
@[simp] theorem State.sendOk_rdata (bs : BusState) (s : State) : (s.sendOk bs).rdata = s.rdata := rfl
@[simp] theorem State.sendOk_req (bs : BusState) (s : State) : (s.sendOk bs).req = s.req := rfl
@[simp] theorem State.sendOk_aBytes (bs : BusState) (s : State) : (s.sendOk bs).aBytes = s.aBytes := rfl
@[simp] theorem State.sendOk_responses (bs : BusState) (s : State) : (s.sendOk bs).responses = s.responses := rfl
@[simp] theorem State.sendOk_trace (bs : BusState) (s : State) : (s.sendOk bs).trace = s.trace ++ [.send bs] := rfl
@[simp] theorem State.sendOk_host (bs : BusState) (s : State) : (s.sendOk bs).host = s.host := rfl
@[simp] theorem State.sendOk_link (bs : BusState) (s : State) : (s.sendOk bs).link = s.link.tail := rfl
@[simp] theorem State.sendOk_rx (bs : BusState) (s : State) : (s.sendOk bs).rx = s.rx := rfl
@[simp] theorem State.sendOk_draws (bs : BusState) (s : State) : (s.sendOk bs).draws = s.draws := rfl

-- State.sendFail
@[simp] theorem State.sendFail_cfg (bs : BusState) (r : Report) (s : State) : (s.sendFail bs r).cfg = s.cfg := rfl
@[simp] theorem State.sendFail_bus (bs : BusState) (r : Report) (s : State) : (s.sendFail bs r).bus = fitVariant s.cfg.variant (Config.busAfterFailure s.draws) := rfl
@[simp] theorem State.sendFail_seq (bs : BusState) (r : Report) (s : State) : (s.sendFail bs r).seq = [] := rfl
@[simp] theorem State.sendFail_op (bs : BusState) (r : Report) (s : State) : (s.sendFail bs r).op = s.op := rfl
@[simp] theorem State.sendFail_aLine (bs : BusState) (r : Report) (s : State) : (s.sendFail bs r).aLine = s.aLine := rfl
@[simp] theorem State.sendFail_aCol (bs : BusState) (r : Report) (s : State) : (s.sendFail bs r).aCol = s.aCol := rfl
@[simp] theorem State.sendFail_aFlags (bs : BusState) (r : Report) (s : State) : (s.sendFail bs r).aFlags = s.aFlags := rfl
@[simp] theorem State.sendFail_aCode (bs : BusState) (r : Report) (s : State) : (s.sendFail bs r).aCode = s.aCode := rfl
@[simp] theorem State.sendFail_aLen (bs : BusState) (r : Report) (s : State) : (s.sendFail bs r).aLen = s.aLen := rfl
@[simp] theorem State.sendFail_byte (bs : BusState) (r : Report) (s : State) : (s.sendFail bs r).byte = s.byte := rfl
@[simp] theorem State.sendFail_phase (bs : BusState) (r : Report) (s : State) : (s.sendFail bs r).phase = s.phase := rfl
@[simp] theorem State.sendFail_idx (bs : BusState) (r : Report) (s : State) : (s.sendFail bs r).idx = s.idx := rfl
@[simp] theorem State.sendFail_tmr (bs : BusState) (r : Report) (s : State) : (s.sendFail bs r).tmr = s.tmr := rfl
@[simp] theorem State.sendFail_bf (bs : BusState) (r : Report) (s : State) : (s.sendFail bs r).bf = s.bf := rfl
@[simp] theorem State.sendFail_status (bs : BusState) (r : Report) (s : State) : (s.sendFail bs r).status = .transportFailure := rfl
@[simp] theorem State.sendFail_cancelPend (bs : BusState) (r : Report) (s : State) : (s.sendFail bs r).cancelPend = false := rfl
@[simp] theorem State.sendFail_rbuf (bs : BusState) (r : Report) (s : State) : (s.sendFail bs r).rbuf = [] := rfl
@[simp] theorem State.sendFail_rdata (bs : BusState) (r : Report) (s : State) : (s.sendFail bs r).rdata = s.rdata := rfl
@[simp] theorem State.sendFail_req (bs : BusState) (r : Report) (s : State) : (s.sendFail bs r).req = s.req := rfl
@[simp] theorem State.sendFail_aBytes (bs : BusState) (r : Report) (s : State) : (s.sendFail bs r).aBytes = s.aBytes := rfl
@[simp] theorem State.sendFail_responses (bs : BusState) (r : Report) (s : State) : (s.sendFail bs r).responses = s.responses ++ [{ status := .transportFailure, data := [], report := some r }] := rfl
@[simp] theorem State.sendFail_trace (bs : BusState) (r : Report) (s : State) : (s.sendFail bs r).trace = s.trace ++ [.sendFailed bs] := rfl
@[simp] theorem State.sendFail_host (bs : BusState) (r : Report) (s : State) : (s.sendFail bs r).host = s.host := rfl
@[simp] theorem State.sendFail_link (bs : BusState) (r : Report) (s : State) : (s.sendFail bs r).link = s.link.tail := rfl
@[simp] theorem State.sendFail_rx (bs : BusState) (r : Report) (s : State) : (s.sendFail bs r).rx = s.rx := rfl
@[simp] theorem State.sendFail_draws (bs : BusState) (r : Report) (s : State) : (s.sendFail bs r).draws = s.draws + 1 := rfl

-- State.recvOk
@[simp] theorem State.recvOk_cfg (s : State) : (s.recvOk).cfg = s.cfg := rfl
@[simp] theorem State.recvOk_bus (s : State) : (s.recvOk).bus = s.bus := rfl
@[simp] theorem State.recvOk_seq (s : State) : (s.recvOk).seq = s.seq := rfl
@[simp] theorem State.recvOk_op (s : State) : (s.recvOk).op = s.op := rfl
@[simp] theorem State.recvOk_aLine (s : State) : (s.recvOk).aLine = s.aLine := rfl
@[simp] theorem State.recvOk_aCol (s : State) : (s.recvOk).aCol = s.aCol := rfl
@[simp] theorem State.recvOk_aFlags (s : State) : (s.recvOk).aFlags = s.aFlags := rfl
@[simp] theorem State.recvOk_aCode (s : State) : (s.recvOk).aCode = s.aCode := rfl
@[simp] theorem State.recvOk_aLen (s : State) : (s.recvOk).aLen = s.aLen := rfl
@[simp] theorem State.recvOk_byte (s : State) : (s.recvOk).byte = collectNibble s.phase s.byte (recvNibble s.answer) := rfl
@[simp] theorem State.recvOk_phase (s : State) : (s.recvOk).phase = s.phase := rfl
@[simp] theorem State.recvOk_idx (s : State) : (s.recvOk).idx = s.idx := rfl
@[simp] theorem State.recvOk_tmr (s : State) : (s.recvOk).tmr = s.tmr := rfl
@[simp] theorem State.recvOk_bf (s : State) : (s.recvOk).bf = s.bf := rfl
@[simp] theorem State.recvOk_status (s : State) : (s.recvOk).status = s.status := rfl
@[simp] theorem State.recvOk_cancelPend (s : State) : (s.recvOk).cancelPend = s.cancelPend := rfl
@[simp] theorem State.recvOk_rbuf (s : State) : (s.recvOk).rbuf = s.rbuf := rfl
@[simp] theorem State.recvOk_rdata (s : State) : (s.recvOk).rdata = s.rdata := rfl
@[simp] theorem State.recvOk_req (s : State) : (s.recvOk).req = s.req := rfl
@[simp] theorem State.recvOk_aBytes (s : State) : (s.recvOk).aBytes = s.aBytes := rfl
@[simp] theorem State.recvOk_responses (s : State) : (s.recvOk).responses = s.responses := rfl
@[simp] theorem State.recvOk_trace (s : State) : (s.recvOk).trace = s.trace ++ [.recv s.answer] := rfl
@[simp] theorem State.recvOk_host (s : State) : (s.recvOk).host = s.host := rfl
@[simp] theorem State.recvOk_link (s : State) : (s.recvOk).link = s.link.tail := rfl
@[simp] theorem State.recvOk_rx (s : State) : (s.recvOk).rx = s.rx.tail := rfl
@[simp] theorem State.recvOk_draws (s : State) : (s.recvOk).draws = s.drawsAfterAnswer := rfl

-- State.recvFail
@[simp] theorem State.recvFail_cfg (r : Report) (s : State) : (s.recvFail r).cfg = s.cfg := rfl
@[simp] theorem State.recvFail_bus (r : Report) (s : State) : (s.recvFail r).bus = s.bus := rfl
@[simp] theorem State.recvFail_seq (r : Report) (s : State) : (s.recvFail r).seq = [] := rfl
@[simp] theorem State.recvFail_op (r : Report) (s : State) : (s.recvFail r).op = s.op := rfl
@[simp] theorem State.recvFail_aLine (r : Report) (s : State) : (s.recvFail r).aLine = s.aLine := rfl
@[simp] theorem State.recvFail_aCol (r : Report) (s : State) : (s.recvFail r).aCol = s.aCol := rfl
@[simp] theorem State.recvFail_aFlags (r : Report) (s : State) : (s.recvFail r).aFlags = s.aFlags := rfl
@[simp] theorem State.recvFail_aCode (r : Report) (s : State) : (s.recvFail r).aCode = s.aCode := rfl
@[simp] theorem State.recvFail_aLen (r : Report) (s : State) : (s.recvFail r).aLen = s.aLen := rfl
@[simp] theorem State.recvFail_byte (r : Report) (s : State) : (s.recvFail r).byte = s.byte := rfl
@[simp] theorem State.recvFail_phase (r : Report) (s : State) : (s.recvFail r).phase = s.phase := rfl
@[simp] theorem State.recvFail_idx (r : Report) (s : State) : (s.recvFail r).idx = s.idx := rfl
@[simp] theorem State.recvFail_tmr (r : Report) (s : State) : (s.recvFail r).tmr = s.tmr := rfl
@[simp] theorem State.recvFail_bf (r : Report) (s : State) : (s.recvFail r).bf = s.bf := rfl
@[simp] theorem State.recvFail_status (r : Report) (s : State) : (s.recvFail r).status = .transportFailure := rfl
@[simp] theorem State.recvFail_cancelPend (r : Report) (s : State) : (s.recvFail r).cancelPend = false := rfl
@[simp] theorem State.recvFail_rbuf (r : Report) (s : State) : (s.recvFail r).rbuf = [] := rfl
@[simp] theorem State.recvFail_rdata (r : Report) (s : State) : (s.recvFail r).rdata = s.rdata := rfl
@[simp] theorem State.recvFail_req (r : Report) (s : State) : (s.recvFail r).req = s.req := rfl
@[simp] theorem State.recvFail_aBytes (r : Report) (s : State) : (s.recvFail r).aBytes = s.aBytes := rfl
@[simp] theorem State.recvFail_responses (r : Report) (s : State) : (s.recvFail r).responses = s.responses ++ [{ status := .transportFailure, data := [], report := some r }] := rfl
@[simp] theorem State.recvFail_trace (r : Report) (s : State) : (s.recvFail r).trace = s.trace ++ [.recvFailed] := rfl
@[simp] theorem State.recvFail_host (r : Report) (s : State) : (s.recvFail r).host = s.host := rfl
@[simp] theorem State.recvFail_link (r : Report) (s : State) : (s.recvFail r).link = s.link.tail := rfl
@[simp] theorem State.recvFail_rx (r : Report) (s : State) : (s.recvFail r).rx = s.rx := rfl
@[simp] theorem State.recvFail_draws (r : Report) (s : State) : (s.recvFail r).draws = s.draws := rfl

-- State.startDelay
@[simp] theorem State.startDelay_cfg (n : Nat) (s : State) : (s.startDelay n).cfg = s.cfg := rfl
@[simp] theorem State.startDelay_bus (n : Nat) (s : State) : (s.startDelay n).bus = s.bus := rfl
@[simp] theorem State.startDelay_seq (n : Nat) (s : State) : (s.startDelay n).seq = s.seq := rfl
@[simp] theorem State.startDelay_op (n : Nat) (s : State) : (s.startDelay n).op = s.op := rfl
@[simp] theorem State.startDelay_aLine (n : Nat) (s : State) : (s.startDelay n).aLine = s.aLine := rfl
@[simp] theorem State.startDelay_aCol (n : Nat) (s : State) : (s.startDelay n).aCol = s.aCol := rfl
@[simp] theorem State.startDelay_aFlags (n : Nat) (s : State) : (s.startDelay n).aFlags = s.aFlags := rfl
@[simp] theorem State.startDelay_aCode (n : Nat) (s : State) : (s.startDelay n).aCode = s.aCode := rfl
@[simp] theorem State.startDelay_aLen (n : Nat) (s : State) : (s.startDelay n).aLen = s.aLen := rfl
@[simp] theorem State.startDelay_byte (n : Nat) (s : State) : (s.startDelay n).byte = s.byte := rfl
@[simp] theorem State.startDelay_phase (n : Nat) (s : State) : (s.startDelay n).phase = s.phase := rfl
@[simp] theorem State.startDelay_idx (n : Nat) (s : State) : (s.startDelay n).idx = s.idx := rfl
@[simp] theorem State.startDelay_tmr (n : Nat) (s : State) : (s.startDelay n).tmr = ticksFor s.cfg n := rfl
@[simp] theorem State.startDelay_bf (n : Nat) (s : State) : (s.startDelay n).bf = s.bf := rfl
@[simp] theorem State.startDelay_status (n : Nat) (s : State) : (s.startDelay n).status = s.status := rfl
@[simp] theorem State.startDelay_cancelPend (n : Nat) (s : State) : (s.startDelay n).cancelPend = s.cancelPend := rfl
@[simp] theorem State.startDelay_rbuf (n : Nat) (s : State) : (s.startDelay n).rbuf = s.rbuf := rfl
@[simp] theorem State.startDelay_rdata (n : Nat) (s : State) : (s.startDelay n).rdata = s.rdata := rfl
@[simp] theorem State.startDelay_req (n : Nat) (s : State) : (s.startDelay n).req = s.req := rfl
@[simp] theorem State.startDelay_aBytes (n : Nat) (s : State) : (s.startDelay n).aBytes = s.aBytes := rfl
@[simp] theorem State.startDelay_responses (n : Nat) (s : State) : (s.startDelay n).responses = s.responses := rfl
@[simp] theorem State.startDelay_trace (n : Nat) (s : State) : (s.startDelay n).trace = s.trace ++ [.delay n] := rfl
@[simp] theorem State.startDelay_host (n : Nat) (s : State) : (s.startDelay n).host = s.host := rfl
@[simp] theorem State.startDelay_link (n : Nat) (s : State) : (s.startDelay n).link = s.link := rfl
@[simp] theorem State.startDelay_rx (n : Nat) (s : State) : (s.startDelay n).rx = s.rx := rfl
@[simp] theorem State.startDelay_draws (n : Nat) (s : State) : (s.startDelay n).draws = s.draws := rfl

-- State.tick
@[simp] theorem State.tick_cfg (s : State) : (s.tick).cfg = s.cfg := rfl
@[simp] theorem State.tick_bus (s : State) : (s.tick).bus = s.bus := rfl
@[simp] theorem State.tick_seq (s : State) : (s.tick).seq = s.seq := rfl
@[simp] theorem State.tick_op (s : State) : (s.tick).op = s.op := rfl
@[simp] theorem State.tick_aLine (s : State) : (s.tick).aLine = s.aLine := rfl
@[simp] theorem State.tick_aCol (s : State) : (s.tick).aCol = s.aCol := rfl
@[simp] theorem State.tick_aFlags (s : State) : (s.tick).aFlags = s.aFlags := rfl
@[simp] theorem State.tick_aCode (s : State) : (s.tick).aCode = s.aCode := rfl
@[simp] theorem State.tick_aLen (s : State) : (s.tick).aLen = s.aLen := rfl
@[simp] theorem State.tick_byte (s : State) : (s.tick).byte = s.byte := rfl
@[simp] theorem State.tick_phase (s : State) : (s.tick).phase = s.phase := rfl
@[simp] theorem State.tick_idx (s : State) : (s.tick).idx = s.idx := rfl
@[simp] theorem State.tick_tmr (s : State) : (s.tick).tmr = s.tmr - 1 := rfl
@[simp] theorem State.tick_bf (s : State) : (s.tick).bf = s.bf := rfl
@[simp] theorem State.tick_status (s : State) : (s.tick).status = s.status := rfl
@[simp] theorem State.tick_cancelPend (s : State) : (s.tick).cancelPend = s.cancelPend := rfl
@[simp] theorem State.tick_rbuf (s : State) : (s.tick).rbuf = s.rbuf := rfl
@[simp] theorem State.tick_rdata (s : State) : (s.tick).rdata = s.rdata := rfl
@[simp] theorem State.tick_req (s : State) : (s.tick).req = s.req := rfl
@[simp] theorem State.tick_aBytes (s : State) : (s.tick).aBytes = s.aBytes := rfl
@[simp] theorem State.tick_responses (s : State) : (s.tick).responses = s.responses := rfl
@[simp] theorem State.tick_trace (s : State) : (s.tick).trace = s.trace := rfl
@[simp] theorem State.tick_host (s : State) : (s.tick).host = s.host := rfl
@[simp] theorem State.tick_link (s : State) : (s.tick).link = s.link := rfl
@[simp] theorem State.tick_rx (s : State) : (s.tick).rx = s.rx := rfl
@[simp] theorem State.tick_draws (s : State) : (s.tick).draws = s.draws := rfl

-- State.latch
@[simp] theorem State.latch_cfg (r : Request) (s : State) : (s.latch r).cfg = s.cfg := rfl
@[simp] theorem State.latch_bus (r : Request) (s : State) : (s.latch r).bus = s.bus := rfl
@[simp] theorem State.latch_seq (r : Request) (s : State) : (s.latch r).seq = s.seq := rfl
@[simp] theorem State.latch_op (r : Request) (s : State) : (s.latch r).op = r.opsel := rfl
@[simp] theorem State.latch_aLine (r : Request) (s : State) : (s.latch r).aLine = r.line := rfl
@[simp] theorem State.latch_aCol (r : Request) (s : State) : (s.latch r).aCol = r.column := rfl
@[simp] theorem State.latch_aFlags (r : Request) (s : State) : (s.latch r).aFlags = r.flags := rfl
@[simp] theorem State.latch_aCode (r : Request) (s : State) : (s.latch r).aCode = r.code := rfl
@[simp] theorem State.latch_aLen (r : Request) (s : State) : (s.latch r).aLen = if r.opsel = 0x7#4 then r.blen.toNat else r.len := rfl
@[simp] theorem State.latch_byte (r : Request) (s : State) : (s.latch r).byte = s.byte := rfl
@[simp] theorem State.latch_phase (r : Request) (s : State) : (s.latch r).phase = s.phase := rfl
@[simp] theorem State.latch_idx (r : Request) (s : State) : (s.latch r).idx = s.idx := rfl
@[simp] theorem State.latch_tmr (r : Request) (s : State) : (s.latch r).tmr = s.tmr := rfl
@[simp] theorem State.latch_bf (r : Request) (s : State) : (s.latch r).bf = s.bf := rfl
@[simp] theorem State.latch_status (r : Request) (s : State) : (s.latch r).status = s.status := rfl
@[simp] theorem State.latch_cancelPend (r : Request) (s : State) : (s.latch r).cancelPend = s.cancelPend := rfl
@[simp] theorem State.latch_rbuf (r : Request) (s : State) : (s.latch r).rbuf = [] := rfl
@[simp] theorem State.latch_rdata (r : Request) (s : State) : (s.latch r).rdata = s.rdata := rfl
@[simp] theorem State.latch_req (r : Request) (s : State) : (s.latch r).req = s.req := rfl
@[simp] theorem State.latch_aBytes (r : Request) (s : State) : (s.latch r).aBytes = r.stream := rfl
@[simp] theorem State.latch_responses (r : Request) (s : State) : (s.latch r).responses = s.responses := rfl
@[simp] theorem State.latch_trace (r : Request) (s : State) : (s.latch r).trace = s.trace := rfl
@[simp] theorem State.latch_host (r : Request) (s : State) : (s.latch r).host = s.host := rfl
@[simp] theorem State.latch_link (r : Request) (s : State) : (s.latch r).link = s.link := rfl
@[simp] theorem State.latch_rx (r : Request) (s : State) : (s.latch r).rx = s.rx := rfl
@[simp] theorem State.latch_draws (r : Request) (s : State) : (s.latch r).draws = s.draws := rfl

-- State.begin
@[simp] theorem State.begin_cfg (ms : List Micro) (s : State) : (s.begin ms).cfg = s.cfg := rfl
@[simp] theorem State.begin_bus (ms : List Micro) (s : State) : (s.begin ms).bus = s.bus := rfl
@[simp] theorem State.begin_seq (ms : List Micro) (s : State) : (s.begin ms).seq = ms ++ [.finish] := rfl
@[simp] theorem State.begin_op (ms : List Micro) (s : State) : (s.begin ms).op = s.op := rfl
@[simp] theorem State.begin_aLine (ms : List Micro) (s : State) : (s.begin ms).aLine = s.aLine := rfl
@[simp] theorem State.begin_aCol (ms : List Micro) (s : State) : (s.begin ms).aCol = s.aCol := rfl
@[simp] theorem State.begin_aFlags (ms : List Micro) (s : State) : (s.begin ms).aFlags = s.aFlags := rfl
@[simp] theorem State.begin_aCode (ms : List Micro) (s : State) : (s.begin ms).aCode = s.aCode := rfl
@[simp] theorem State.begin_aLen (ms : List Micro) (s : State) : (s.begin ms).aLen = s.aLen := rfl
@[simp] theorem State.begin_byte (ms : List Micro) (s : State) : (s.begin ms).byte = s.byte := rfl
@[simp] theorem State.begin_phase (ms : List Micro) (s : State) : (s.begin ms).phase = s.phase := rfl
@[simp] theorem State.begin_idx (ms : List Micro) (s : State) : (s.begin ms).idx = s.idx := rfl
@[simp] theorem State.begin_tmr (ms : List Micro) (s : State) : (s.begin ms).tmr = s.tmr := rfl
@[simp] theorem State.begin_bf (ms : List Micro) (s : State) : (s.begin ms).bf = s.bf := rfl
@[simp] theorem State.begin_status (ms : List Micro) (s : State) : (s.begin ms).status = s.status := rfl
@[simp] theorem State.begin_cancelPend (ms : List Micro) (s : State) : (s.begin ms).cancelPend = s.cancelPend := rfl
@[simp] theorem State.begin_rbuf (ms : List Micro) (s : State) : (s.begin ms).rbuf = s.rbuf := rfl
@[simp] theorem State.begin_rdata (ms : List Micro) (s : State) : (s.begin ms).rdata = s.rdata := rfl
@[simp] theorem State.begin_req (ms : List Micro) (s : State) : (s.begin ms).req = s.req := rfl
@[simp] theorem State.begin_aBytes (ms : List Micro) (s : State) : (s.begin ms).aBytes = s.aBytes := rfl
@[simp] theorem State.begin_responses (ms : List Micro) (s : State) : (s.begin ms).responses = s.responses := rfl
@[simp] theorem State.begin_trace (ms : List Micro) (s : State) : (s.begin ms).trace = s.trace := rfl
@[simp] theorem State.begin_host (ms : List Micro) (s : State) : (s.begin ms).host = s.host := rfl
@[simp] theorem State.begin_link (ms : List Micro) (s : State) : (s.begin ms).link = s.link := rfl
@[simp] theorem State.begin_rx (ms : List Micro) (s : State) : (s.begin ms).rx = s.rx := rfl
@[simp] theorem State.begin_draws (ms : List Micro) (s : State) : (s.begin ms).draws = s.draws := rfl

-- State.raiseCancel
@[simp] theorem State.raiseCancel_cfg (c : Bool) (s : State) : (s.raiseCancel c).cfg = s.cfg := rfl
@[simp] theorem State.raiseCancel_bus (c : Bool) (s : State) : (s.raiseCancel c).bus = s.bus := rfl
@[simp] theorem State.raiseCancel_seq (c : Bool) (s : State) : (s.raiseCancel c).seq = s.seq := rfl
@[simp] theorem State.raiseCancel_op (c : Bool) (s : State) : (s.raiseCancel c).op = s.op := rfl
@[simp] theorem State.raiseCancel_aLine (c : Bool) (s : State) : (s.raiseCancel c).aLine = s.aLine := rfl
@[simp] theorem State.raiseCancel_aCol (c : Bool) (s : State) : (s.raiseCancel c).aCol = s.aCol := rfl
@[simp] theorem State.raiseCancel_aFlags (c : Bool) (s : State) : (s.raiseCancel c).aFlags = s.aFlags := rfl
@[simp] theorem State.raiseCancel_aCode (c : Bool) (s : State) : (s.raiseCancel c).aCode = s.aCode := rfl
@[simp] theorem State.raiseCancel_aLen (c : Bool) (s : State) : (s.raiseCancel c).aLen = s.aLen := rfl
@[simp] theorem State.raiseCancel_byte (c : Bool) (s : State) : (s.raiseCancel c).byte = s.byte := rfl
@[simp] theorem State.raiseCancel_phase (c : Bool) (s : State) : (s.raiseCancel c).phase = s.phase := rfl
@[simp] theorem State.raiseCancel_idx (c : Bool) (s : State) : (s.raiseCancel c).idx = s.idx := rfl
@[simp] theorem State.raiseCancel_tmr (c : Bool) (s : State) : (s.raiseCancel c).tmr = s.tmr := rfl
@[simp] theorem State.raiseCancel_bf (c : Bool) (s : State) : (s.raiseCancel c).bf = s.bf := rfl
@[simp] theorem State.raiseCancel_status (c : Bool) (s : State) : (s.raiseCancel c).status = s.status := rfl
@[simp] theorem State.raiseCancel_cancelPend (c : Bool) (s : State) : (s.raiseCancel c).cancelPend = (s.cancelPend || (c && s.busy)) := rfl
@[simp] theorem State.raiseCancel_rbuf (c : Bool) (s : State) : (s.raiseCancel c).rbuf = s.rbuf := rfl
@[simp] theorem State.raiseCancel_rdata (c : Bool) (s : State) : (s.raiseCancel c).rdata = s.rdata := rfl
@[simp] theorem State.raiseCancel_req (c : Bool) (s : State) : (s.raiseCancel c).req = s.req := rfl
@[simp] theorem State.raiseCancel_aBytes (c : Bool) (s : State) : (s.raiseCancel c).aBytes = s.aBytes := rfl
@[simp] theorem State.raiseCancel_responses (c : Bool) (s : State) : (s.raiseCancel c).responses = s.responses := rfl
@[simp] theorem State.raiseCancel_trace (c : Bool) (s : State) : (s.raiseCancel c).trace = s.trace := rfl
@[simp] theorem State.raiseCancel_host (c : Bool) (s : State) : (s.raiseCancel c).host = s.host := rfl
@[simp] theorem State.raiseCancel_link (c : Bool) (s : State) : (s.raiseCancel c).link = s.link := rfl
@[simp] theorem State.raiseCancel_rx (c : Bool) (s : State) : (s.raiseCancel c).rx = s.rx := rfl
@[simp] theorem State.raiseCancel_draws (c : Bool) (s : State) : (s.raiseCancel c).draws = s.draws := rfl

-- State.restart
@[simp] theorem State.restart_cfg (c : Config) (s : State) : (s.restart c).cfg = c := rfl
@[simp] theorem State.restart_bus (c : Config) (s : State) : (s.restart c).bus = resetBus c := rfl
@[simp] theorem State.restart_seq (c : Config) (s : State) : (s.restart c).seq = [] := rfl
@[simp] theorem State.restart_op (c : Config) (s : State) : (s.restart c).op = 0#4 := rfl
@[simp] theorem State.restart_aLine (c : Config) (s : State) : (s.restart c).aLine = 0#1 := rfl
@[simp] theorem State.restart_aCol (c : Config) (s : State) : (s.restart c).aCol = 0#6 := rfl
@[simp] theorem State.restart_aFlags (c : Config) (s : State) : (s.restart c).aFlags = 0#3 := rfl
@[simp] theorem State.restart_aCode (c : Config) (s : State) : (s.restart c).aCode = 0#4 := rfl
@[simp] theorem State.restart_aLen (c : Config) (s : State) : (s.restart c).aLen = 0 := rfl
@[simp] theorem State.restart_byte (c : Config) (s : State) : (s.restart c).byte = 0#8 := rfl
@[simp] theorem State.restart_phase (c : Config) (s : State) : (s.restart c).phase = .hi := rfl
@[simp] theorem State.restart_idx (c : Config) (s : State) : (s.restart c).idx = 0 := rfl
@[simp] theorem State.restart_tmr (c : Config) (s : State) : (s.restart c).tmr = 0 := rfl
@[simp] theorem State.restart_bf (c : Config) (s : State) : (s.restart c).bf = false := rfl
@[simp] theorem State.restart_status (c : Config) (s : State) : (s.restart c).status = .ok := rfl
@[simp] theorem State.restart_cancelPend (c : Config) (s : State) : (s.restart c).cancelPend = false := rfl
@[simp] theorem State.restart_rbuf (c : Config) (s : State) : (s.restart c).rbuf = [] := rfl
@[simp] theorem State.restart_rdata (c : Config) (s : State) : (s.restart c).rdata = 0#8 := rfl
@[simp] theorem State.restart_req (c : Config) (s : State) : (s.restart c).req = none := rfl
@[simp] theorem State.restart_aBytes (c : Config) (s : State) : (s.restart c).aBytes = [] := rfl
@[simp] theorem State.restart_responses (c : Config) (s : State) : (s.restart c).responses = s.responses := rfl
@[simp] theorem State.restart_trace (c : Config) (s : State) : (s.restart c).trace = [] := rfl
@[simp] theorem State.restart_host (c : Config) (s : State) : (s.restart c).host = s.host := rfl
@[simp] theorem State.restart_link (c : Config) (s : State) : (s.restart c).link = s.link := rfl
@[simp] theorem State.restart_rx (c : Config) (s : State) : (s.restart c).rx = s.rx := rfl
@[simp] theorem State.restart_draws (c : Config) (s : State) : (s.restart c).draws = s.draws := rfl

end Sys2Proof.Machine
end

