-- ==== Sys2Proof/Laws/Ops.lean ====
section
/-! SUPPORT. One lemma for each shared operation that says everything it can do. -/

namespace Sys2Proof.Machine

open Sys2Proof

theorem State.busy_eq_false_iff (s : State) : s.busy = false ↔ s.seq = [] := by
  simp [State.busy]

theorem State.busy_eq_true_iff (s : State) : s.busy = true ↔ s.seq ≠ [] := by
  simp [State.busy]

/-- A `send` completes or raises `TransportFailure` (R7, R182). -/
theorem State.send_cases (bs : BusState) (s : State) :
    (s.linkCode = none ∧ s.send bs = s.sendOk bs) ∨ ∃ r, s.linkCode = some r ∧ s.send bs = s.sendFail bs r := by
  unfold State.send
  cases h : s.linkCode with
  | none => exact .inl ⟨rfl, rfl⟩
  | some r => exact .inr ⟨r, rfl, rfl⟩

/-- A `recv` completes or raises `TransportFailure` (R7, R182). -/
theorem State.recv_cases (s : State) :
    (s.linkCode = none ∧ s.recv = s.recvOk) ∨ ∃ r, s.linkCode = some r ∧ s.recv = s.recvFail r := by
  unfold State.recv
  cases h : s.linkCode with
  | none => exact .inl ⟨rfl, rfl⟩
  | some r => exact .inr ⟨r, rfl, rfl⟩

/-- What exists only in BF answers a next state exactly there (R131). -/
theorem bfOnly_next {what : String} {s t : State} {f : State → State} (h : bfOnly what s f = .next t) :
    s.cfg.variant = .bf ∧ t = f s := by
  unfold bfOnly at h
  split at h
  · cases h; exact ⟨‹_›, rfl⟩
  · cases h

theorem bfOnly_bf {what : String} {s : State} {f : State → State} (h : s.cfg.variant = .bf) :
    bfOnly what s f = .next (f s) := by
  unfold bfOnly; rw [h]

theorem bfOnly_fd {what : String} {s : State} {f : State → State} (h : s.cfg.variant = .fd) :
    bfOnly what s f = .refused (.absentInFd what) := by
  unfold bfOnly; rw [h]

/-- A host operation: no effect on a busy engine, an argument fault, or the operation's step list (R33, R191). -/
theorem State.startOperation_cases (r : Request) (check : State → Option Status) (steps : State → List Micro)
    (s : State) :
    (s.seq ≠ [] ∧ s.startOperation r check steps = s) ∨
    (s.seq = [] ∧ ∃ e, check (s.latch r) = some e ∧ s.startOperation r check steps = (s.latch r).raise e none) ∨
    (s.seq = [] ∧ check (s.latch r) = none ∧
      s.startOperation r check steps = (s.latch r).begin (steps (s.latch r))) := by
  unfold State.startOperation
  by_cases hb : s.seq = []
  · rw [if_neg (by simp [State.busy, hb])]
    cases hc : check (s.latch r) with
    | some e => exact .inr (.inl ⟨hb, e, rfl, rfl⟩)
    | none => exact .inr (.inr ⟨hb, rfl, rfl⟩)
  · rw [if_pos ((State.busy_eq_true_iff s).2 hb)]
    exact .inl ⟨hb, rfl⟩

/-- The data loop: it ends, issues one transaction, or waits for a byte the host has not supplied (R27, R164 to R166). -/
theorem dataLoop_cases (s : State) :
    (s.idx = s.dataEnd ∧ dataLoop s = s) ∨
    (s.idx ≠ s.dataEnd ∧ s.op = 0x6#4 ∧ dataLoop s = s.push [.run .readData, .byteRead, .dataLoop]) ∨
    (s.idx ≠ s.dataEnd ∧ s.op ≠ 0x6#4 ∧ ∃ b, s.aBytes[s.idx]? = some b ∧
      dataLoop s = s.push [.run (.data b), .byteSent, .dataLoop]) ∨
    (s.idx ≠ s.dataEnd ∧ s.op ≠ 0x6#4 ∧ s.aBytes[s.idx]? = none ∧ dataLoop s = s.push [.dataLoop]) := by
  unfold dataLoop
  by_cases h₁ : s.idx = s.dataEnd
  · exact .inl ⟨h₁, by rw [if_pos h₁]⟩
  · by_cases h₂ : s.op = 0x6#4
    · exact .inr (.inl ⟨h₁, h₂, by rw [if_neg h₁, if_pos h₂]⟩)
    · rw [if_neg h₁, if_neg h₂]
      cases hb : s.aBytes[s.idx]? with
      | some b => exact .inr (.inr (.inl ⟨h₁, h₂, b, rfl, rfl⟩))
      | none => exact .inr (.inr (.inr ⟨h₁, h₂, rfl, rfl⟩))

/-- `onNext` answers a next state exactly when its argument does. -/
theorem onNext_next {f : State → State} {o : Host.Outcome State Fault Refusal} {t : State}
    (h : onNext f o = .next t) : ∃ u, o = .next u ∧ t = f u := by
  cases o with
  | next u => cases h; exact ⟨u, rfl, rfl⟩
  | fault r => cases h
  | refused r => cases h

/-- Acceptance: the request's instruction is run, the cancel of that moment waits (R10, R191). -/
theorem accept_next {c : Bool} {r : Request} {s t : State} (h : accept c r s = .next t) :
    ∃ i u, decode (.request r) = .ok i ∧ i.wf s.cfg = true ∧ exec i { s with req := none } = .next u ∧
      t = u.raiseCancel c := by
  unfold accept at h
  split at h
  · cases h
  · rename_i i hi
    split at h
    · obtain ⟨u, hu, rfl⟩ := onNext_next h
      exact ⟨i, u, hi, ‹_›, hu, rfl⟩
    · cases h

-- Where the nibble arithmetic agrees with the formulas of R87 and R102

theorem hiNibble_eq (b : Byte) : hiNibble b = (b >>> 4).setWidth 4 := by
  revert b; decide

theorem loNibble_eq (b : Byte) : loNibble b = (b &&& 0xF#8).setWidth 4 := by
  revert b; decide

/-- A byte read is the byte assembled from its two nibbles, high first (R87). -/
theorem joinNibbles_hi_lo (b : Byte) : joinNibbles (hiNibble b) (loNibble b) = b := by
  revert b; decide

theorem hiNibble_joinNibbles (h l : Nibble) : hiNibble (joinNibbles h l) = h := by
  revert h l; decide

theorem loNibble_joinNibbles (h l : Nibble) : loNibble (joinNibbles h l) = l := by
  revert h l; decide

/-- The busy flag of an assembled byte is bit 3 of its high nibble (R133). -/
theorem busyFlag_joinNibbles (h l : Nibble) : busyFlag (joinNibbles h l) = h.getLsbD 3 := by
  revert h l; decide

theorem decodeStatus_eq (b : Byte) : decodeStatus b = .status (busyFlag b) (b.extractLsb' 0 7) := rfl

end Sys2Proof.Machine
end

