-- ==== Sys2Proof/Laws/Step.lean ====
section
/-! SUPPORT. One inversion lemma for each function around exec: everything a move of the sequencer, the engine and the step can do. -/

namespace Sys2Proof.Machine

open Sys2Proof

theorem step_eq_cycle (s : State) : step s = cycle s := rfl

/-- A step: reset (R210), or a move of the engine after the host's input. -/
theorem step_cases (s : State) :
    (∃ cfg, s.hostNow.reset = some cfg ∧ step s = .next (State.restart cfg { s with host := s.host.tail })) ∨
    (s.hostNow.reset = none ∧ step s = engine s.hostNow.cancel s.afterHost) := by
  rw [step_eq_cycle]
  unfold cycle
  cases h : s.hostNow.reset with
  | some cfg => exact .inl ⟨cfg, rfl, rfl⟩
  | none => exact .inr ⟨rfl, rfl⟩

/-- A move of the engine: a tick, idle waiting, acceptance, a cancel taken, or the position `SEQ` has reached. -/
theorem engine_cases (c : Bool) (s : State) :
    (s.tmr ≠ 0 ∧ engine c s = .next s.tick) ∨
    (s.tmr = 0 ∧ s.seq = [] ∧ s.req = none ∧ engine c s = .next s) ∨
    (s.tmr = 0 ∧ s.seq = [] ∧ ∃ r, s.req = some r ∧ engine c s = accept c r s) ∨
    (s.tmr = 0 ∧ s.cancelPend = true ∧ atCancellationPoint s.seq = true ∧ engine c s = .next s.takeCancel) ∨
    (s.tmr = 0 ∧ ∃ m rest, s.seq = m :: rest ∧ ¬(s.cancelPend = true ∧ atCancellationPoint s.seq = true) ∧
      engine c s = runMicro m (s.goto rest)) := by
  unfold engine
  by_cases ht : s.tmr = 0
  · rw [if_neg (by simp [ht])]
    cases hs : s.seq with
    | nil =>
      cases hr : s.req with
      | none => exact .inr (.inl ⟨ht, rfl, rfl, rfl⟩)
      | some r => exact .inr (.inr (.inl ⟨ht, rfl, r, rfl, rfl⟩))
    | cons m rest =>
      by_cases hc : s.cancelPend = true ∧ atCancellationPoint (m :: rest) = true
      · exact .inr (.inr (.inr (.inl ⟨ht, hc.1, hc.2, by simp [hc.1, hc.2]⟩)))
      · refine .inr (.inr (.inr (.inr ⟨ht, m, rest, rfl, hc, ?_⟩)))
        simp only
        rw [if_neg (by simpa using hc)]
  · exact .inl ⟨ht, by rw [if_pos ht]⟩

/-- The host's input touches the request channel, the latched cancel and the host's own list only. -/
theorem afterHost_eq (s : State) :
    s.afterHost = { s with
      host := s.host.tail
      req := s.hostNow.present.or s.req
      cancelPend := s.cancelPend || (s.hostNow.cancel && s.busy) } := by
  unfold State.afterHost State.present
  cases s.hostNow.present <;> rfl

/-- With a host that does nothing its input changes nothing. -/
theorem afterHost_quiet {s : State} (h : s.host = []) : s.afterHost = s := by
  rw [afterHost_eq]
  have hn : s.hostNow = {} := by simp [State.hostNow, h]
  cases s; simp_all

theorem hostNow_quiet {s : State} (h : s.host = []) : s.hostNow = {} := by simp [State.hostNow, h]

/-- With a host that does nothing a step is a move of the engine. -/
theorem step_quiet {s : State} (h : s.host = []) : step s = engine false s := by
  rw [step_eq_cycle, cycle, hostNow_quiet h, afterHost_quiet h]

/-- With a host that does nothing, the timer stopped and no cancel pending, a step runs the position reached. -/
theorem step_quiet_micro {s : State} {m : Micro} {rest : List Micro} (hh : s.host = []) (ht : s.tmr = 0)
    (hc : s.cancelPend = false) (hs : s.seq = m :: rest) : step s = runMicro m (s.goto rest) := by
  rw [step_quiet hh]
  unfold engine
  rw [if_neg (by simp [ht]), hs]
  simp [hc]

/-- Without a reset a step is a move of the engine after the host's input. -/
theorem step_no_reset {s : State} (h : s.hostNow.reset = none) : step s = engine s.hostNow.cancel s.afterHost := by
  rcases step_cases s with ⟨c, hc, -⟩ | ⟨-, hs⟩
  · rw [h] at hc; cases hc
  · exact hs

-- What the host's input leaves alone

@[simp] theorem afterHost_cfg (s : State) : s.afterHost.cfg = s.cfg := by rw [afterHost_eq]
@[simp] theorem afterHost_bus (s : State) : s.afterHost.bus = s.bus := by rw [afterHost_eq]
@[simp] theorem afterHost_seq (s : State) : s.afterHost.seq = s.seq := by rw [afterHost_eq]
@[simp] theorem afterHost_op (s : State) : s.afterHost.op = s.op := by rw [afterHost_eq]
@[simp] theorem afterHost_aLine (s : State) : s.afterHost.aLine = s.aLine := by rw [afterHost_eq]
@[simp] theorem afterHost_aCol (s : State) : s.afterHost.aCol = s.aCol := by rw [afterHost_eq]
@[simp] theorem afterHost_aFlags (s : State) : s.afterHost.aFlags = s.aFlags := by rw [afterHost_eq]
@[simp] theorem afterHost_aCode (s : State) : s.afterHost.aCode = s.aCode := by rw [afterHost_eq]
@[simp] theorem afterHost_aLen (s : State) : s.afterHost.aLen = s.aLen := by rw [afterHost_eq]
@[simp] theorem afterHost_byte (s : State) : s.afterHost.byte = s.byte := by rw [afterHost_eq]
@[simp] theorem afterHost_phase (s : State) : s.afterHost.phase = s.phase := by rw [afterHost_eq]
@[simp] theorem afterHost_idx (s : State) : s.afterHost.idx = s.idx := by rw [afterHost_eq]
@[simp] theorem afterHost_tmr (s : State) : s.afterHost.tmr = s.tmr := by rw [afterHost_eq]
@[simp] theorem afterHost_bf (s : State) : s.afterHost.bf = s.bf := by rw [afterHost_eq]
@[simp] theorem afterHost_status (s : State) : s.afterHost.status = s.status := by rw [afterHost_eq]
@[simp] theorem afterHost_rbuf (s : State) : s.afterHost.rbuf = s.rbuf := by rw [afterHost_eq]
@[simp] theorem afterHost_rdata (s : State) : s.afterHost.rdata = s.rdata := by rw [afterHost_eq]
@[simp] theorem afterHost_aBytes (s : State) : s.afterHost.aBytes = s.aBytes := by rw [afterHost_eq]
@[simp] theorem afterHost_responses (s : State) : s.afterHost.responses = s.responses := by rw [afterHost_eq]
@[simp] theorem afterHost_trace (s : State) : s.afterHost.trace = s.trace := by rw [afterHost_eq]
@[simp] theorem afterHost_link (s : State) : s.afterHost.link = s.link := by rw [afterHost_eq]
@[simp] theorem afterHost_rx (s : State) : s.afterHost.rx = s.rx := by rw [afterHost_eq]
@[simp] theorem afterHost_draws (s : State) : s.afterHost.draws = s.draws := by rw [afterHost_eq]

@[simp] theorem afterHost_host (s : State) : s.afterHost.host = s.host.tail := by rw [afterHost_eq]
@[simp] theorem afterHost_req (s : State) : s.afterHost.req = s.hostNow.present.or s.req := by rw [afterHost_eq]
@[simp] theorem afterHost_cancelPend (s : State) :
    s.afterHost.cancelPend = (s.cancelPend || (s.hostNow.cancel && s.busy)) := by rw [afterHost_eq]

/-- A position at which no cancel is taken is run (R186). -/
theorem engine_runs {c : Bool} {s : State} {m : Micro} {k : List Micro} (ht : s.tmr = 0) (hs : s.seq = m :: k)
    (h : s.cancelPend = false ∨ atCancellationPoint (m :: k) = false) : engine c s = runMicro m (s.goto k) := by
  unfold engine
  rw [if_neg (by simp [ht]), hs]
  simp only
  rw [if_neg (by rcases h with h | h <;> simp [h])]

/-- With a host that does nothing and the timer stopped, a position that begins no unit is run whatever is pending. -/
theorem step_quiet_nonunit {s : State} {m : Micro} {k : List Micro} (hh : s.host = []) (ht : s.tmr = 0)
    (hs : s.seq = m :: k) (hm : atCancellationPoint (m :: k) = false) : step s = runMicro m (s.goto k) := by
  rw [step_quiet hh]
  exact engine_runs ht hs (.inr hm)

end Sys2Proof.Machine
end

