-- ==== Sys2Proof/Laws/Run.lean ====
section
/-! SUPPORT. Runs: composition, one step, the ticks of a delay. -/

namespace Sys2Proof.Machine

open Sys2Proof

theorem Reaches.refl (s : State) : Reaches s s := ⟨0, rfl⟩

theorem run_zero (s : State) : run 0 s = .next s := rfl

theorem core_run_next (M : Host.Core) {s t : M.State} (h : M.step s = .next t) (n : Nat) :
    M.run (n + 1) s = M.run n t := by rw [Host.Core.run, h]

theorem core_run_fault (M : Host.Core) {s : M.State} {r : M.Fault} (h : M.step s = .fault r) (n : Nat) :
    M.run (n + 1) s = .fault r := by rw [Host.Core.run, h]

theorem core_run_refused (M : Host.Core) {s : M.State} {r : M.Refusal} (h : M.step s = .refused r) (n : Nat) :
    M.run (n + 1) s = .refused r := by rw [Host.Core.run, h]

/-- `run` is the host's run of the machine. -/
theorem run_eq_core (n : Nat) (s : State) : run n s = Sys2Proof.core.run n s := by
  induction n generalizing s with
  | zero => rfl
  | succ n ih =>
    rw [run]
    cases h : Sys2Proof.Machine.step s with
    | next t => exact (ih t).trans (core_run_next Sys2Proof.core h n).symm
    | fault r => exact (core_run_fault Sys2Proof.core h n).symm
    | refused r => exact (core_run_refused Sys2Proof.core h n).symm

theorem run_succ {s t : State} (h : step s = .next t) (n : Nat) :
    run (n + 1) s = run n t := by
  rw [run, h]

/-- A run of at least one step begins with a step to a next state. -/
theorem run_succ_next {s t : State} {n : Nat} (h : run (n + 1) s = .next t) :
    ∃ u, step s = .next u ∧ run n u = .next t := by
  rw [run] at h
  cases hs : Sys2Proof.Machine.step s with
  | next u => rw [hs] at h; exact ⟨u, rfl, h⟩
  | fault r => rw [hs] at h; cases h
  | refused r => rw [hs] at h; cases h

/-- A run of `n + m` steps is a run of `n` and then one of `m`. -/
theorem run_add {s t : State} {n : Nat} (h : run n s = .next t) (m : Nat) :
    run (n + m) s = run m t := by
  induction n generalizing s with
  | zero => cases h; rw [Nat.zero_add]
  | succ n ih =>
    obtain ⟨u, hu, hn⟩ := run_succ_next h
    rw [Nat.succ_add, run_succ hu]
    exact ih hn

theorem Reaches.trans {s t u : State} (h₁ : Reaches s t) (h₂ : Reaches t u) : Reaches s u := by
  obtain ⟨n, hn⟩ := h₁
  obtain ⟨m, hm⟩ := h₂
  exact ⟨n + m, by rw [run_add hn]; exact hm⟩

theorem Reaches.step {s t u : State} (h : step s = .next t) (h₂ : Reaches t u) : Reaches s u :=
  Reaches.trans ⟨1, by rw [run_succ h, run_zero]⟩ h₂

/-- A running timer counts down to zero and nothing else changes (R138). -/
theorem run_ticks (s : State) (hh : s.host = []) :
    run s.tmr s = .next { s with tmr := 0 } := by
  generalize hn : s.tmr = n
  induction n generalizing s with
  | zero => rw [run_zero]; cases s; simp_all
  | succ n ih =>
    have hs : Sys2Proof.Machine.step s = .next s.tick := by
      rw [step_quiet hh]
      unfold engine
      rw [if_pos (by omega)]
    rw [run_succ hs, ih s.tick hh (by simp [hn])]
    rfl

end Sys2Proof.Machine
end

