-- ==== Sys2Proof/Laws/Trace.lean ====
section
/-! SUPPORT. Traces, the events a transport carries, and the counts of the timer. -/

namespace Sys2Proof.Machine

open Sys2Proof

theorem busAfter_append (es es' : List Event) (b : BusState) :
    busAfter b (es ++ es') = busAfter (busAfter b es) es' := by
  induction es generalizing b with
  | nil => rfl
  | cons e es ih => cases e <;> simp [busAfter, ih]

theorem emit_emit (s : State) (es es' : List Event) : (s.emit es).emit es' = s.emit (es ++ es') := by
  simp [State.emit, busAfter_append]

theorem sends_append (es es' : List Event) : sends (es ++ es') = sends es ++ sends es' := by
  induction es with
  | nil => rfl
  | cons e es ih => cases e <;> simp [sends, ih]

/-- `BUS` after events is the last BusState sent. -/
theorem busAfter_eq_getLast (es : List Event) (b : BusState) :
    busAfter b es = (b :: sends es).getLast (List.cons_ne_nil _ _) := by
  induction es generalizing b with
  | nil => rfl
  | cons e es ih =>
    cases e with
    | send bs => simp only [busAfter, sends, ih]; rw [List.getLast_cons (List.cons_ne_nil _ _)]
    | _ => simp only [busAfter, sends, ih]

theorem pulses_append (es es' : List Event) : pulses (es ++ es') = pulses es + pulses es' := by
  simp [pulses, sends_append]

theorem noFailure_left {es es' : List Event} (h : NoFailure (es ++ es')) : NoFailure es :=
  fun e he => h e (List.mem_append_left _ he)

/-- A transport whose list is used up carries everything (log 3). -/
theorem carried_nil (es : List Event) : carried [] es = (es, none) := by
  induction es with
  | nil => rfl
  | cons e es ih => cases e <;> simp [carried, ih]

/-- Where nothing fails every event is carried. -/
theorem carried_fst_of_none {codes : List (Option Report)} {es : List Event} (h : (carried codes es).2 = none) :
    (carried codes es).1 = es := by
  induction es generalizing codes with
  | nil => rfl
  | cons e es ih =>
    cases e with
    | send bs =>
      simp only [carried] at h ⊢
      cases hc : codes.headD none with
      | none => rw [hc] at h; simp only [ih h]
      | some r => rw [hc] at h; cases h
    | recv v =>
      simp only [carried] at h ⊢
      cases hc : codes.headD none with
      | none => rw [hc] at h; simp only [ih h]
      | some r => rw [hc] at h; cases h
    | _ => simp only [carried] at h ⊢; rw [ih h]

/-- The `rw` field of the rules' BusStates is the variant's (R70, R71). -/
theorem writeBus_eq_busLit (cfg : Config) (rs e : Bool) (d : Option Nibble) :
    writeBus cfg.variant rs e d = busLit cfg rs false e d := by
  unfold writeBus busLit rwField; cases cfg.variant <;> rfl

theorem readBus_eq_busLit (cfg : Config) (rs e : Bool) : readBus cfg.variant rs e = busLit cfg rs true e none := by
  unfold readBus busLit rwField; cases cfg.variant <;> rfl

theorem rwField_isSome (v : Variant) (x : Bool) : (rwField v x).isSome = decide (v = .bf) := by cases v <;> rfl

/-- `ceil(n / TICK_NS)`: the least count whose ticks last `n` (R138). -/
theorem ticksFor_spec {cfg : Config} (hw : cfg.wf = true) (n : Nat) :
    n ≤ ticksFor cfg n * cfg.tickNs ∧ ∀ j, n ≤ j * cfg.tickNs → ticksFor cfg n ≤ j := by
  have ht : 1 ≤ cfg.tickNs := by simp [Config.wf] at hw; omega
  unfold ticksFor
  constructor
  · have h1 := Nat.div_add_mod (n + (cfg.tickNs - 1)) cfg.tickNs
    have h2 := Nat.mod_lt (n + (cfg.tickNs - 1)) (show cfg.tickNs > 0 by omega)
    rw [Nat.mul_comm] at h1
    omega
  · intro j hj
    have h : n + (cfg.tickNs - 1) < (j + 1) * cfg.tickNs := by rw [Nat.add_mul]; omega
    exact Nat.lt_succ_iff.1 (Nat.div_lt_of_lt_mul (by rw [Nat.mul_comm]; exact h))

theorem ticksFor_mono (cfg : Config) {m n : Nat} (h : m ≤ n) : ticksFor cfg m ≤ ticksFor cfg n :=
  Nat.div_le_div_right (by omega)

theorem le_foldl_max {l : List Nat} {x a : Nat} (h : x ∈ l ∨ x ≤ a) : x ≤ l.foldl max a := by
  induction l generalizing a with
  | nil => simpa using h
  | cons b l ih =>
    rw [List.foldl_cons]
    refine ih ?_
    rcases h with h | h
    · rcases List.mem_cons.1 h with h | h
      · right; omega
      · exact .inl h
    · right; omega

/-- Every delay of the configuration is at most the longest one (R140). -/
theorem le_maxDelay (cfg : Config) {n : Nat} (h : n ∈ [cfg.tINIT1, cfg.tCLEAR, cfg.tINIT2, cfg.tEXEC, cfg.tINIT3,
    cfg.tAS, cfg.tPW, cfg.tCYCR, cfg.tDDR, cfg.tRDH]) : n ≤ cfg.maxDelay := le_foldl_max (.inl h)

/-- The count of a delay that is not too long fits the timer (R140). -/
theorem ticksFor_lt {cfg : Config} {n : Nat} (h : n ≤ cfg.maxDelay) : ticksFor cfg n < 2 ^ timerWidth cfg := by
  refine lt_of_le_of_lt (ticksFor_mono cfg h) ?_
  unfold timerWidth
  split
  · rename_i h0; simp [h0]
  · exact Nat.lt_log2_self

end Sys2Proof.Machine
end

