-- ==== Sys2Proof/Laws/Codec.lean ====
section
/-! SUPPORT. Positions that issue one event each, and the run of a list of them: what the transport carries, what it leaves. -/

namespace Sys2Proof.Machine

open Sys2Proof

/-- The position issues the event when the transport does not fail. -/
inductive Issues : Micro → Event → Prop where
  | send (bs : BusState) : Issues (.send bs) (.send bs)
  | delay (n : Nat) : Issues (.run (.delay n)) (.delay n)
  | recv (v : Byte) : Issues .recv (.recv v)

/-- The bytes received in a trace. -/
def recvs : List Event → List Byte
  | [] => []
  | .recv v :: es => v :: recvs es
  | _ :: es => recvs es

/-- What completed events leave in the state, the delays waited for. -/
def State.afterEvents (s : State) : List Event → State
  | [] => s
  | .send bs :: es => State.afterEvents (s.sendOk bs) es
  | .delay n :: es => State.afterEvents { s with trace := s.trace ++ [.delay n] } es
  | .recv _ :: es => State.afterEvents s.recvOk es
  | _ :: es => State.afterEvents s es

/-- The events do not look at `SEQ`. -/
theorem afterEvents_seq (es : List Event) (s : State) (k k' : List Micro) :
    ({ State.afterEvents { s with seq := k' } es with seq := k } : State) = { s.afterEvents es with seq := k } := by
  induction es generalizing s with
  | nil => rfl
  | cons e es ih =>
    cases e with
    | send bs => exact ih (s.sendOk bs)
    | recv v => exact ih s.recvOk
    | delay n => exact ih { s with trace := s.trace ++ [.delay n] }
    | _ => exact ih s

theorem reaches_ticks (s : State) (h : s.host = []) : Reaches s { s with tmr := 0 } := ⟨s.tmr, run_ticks s h⟩

/-- A list of positions that issue events, before anything else: either the transport carries them all and `SEQ`
goes on, or the first call that fails ends the operation (R7, R182). No cancel is taken inside (R186). -/
theorem run_issues (ms : List Micro) (es : List Event) (s : State) (k : List Micro) (rest : List Byte)
    (hi : List.Forall₂ Issues ms es) (hh : s.host = []) (ht : s.tmr = 0) (hs : s.seq = ms ++ k)
    (hx : s.rx = recvs es ++ rest) (hb : recvs es ≠ [] → s.cfg.variant = .bf) :
    ((carried s.link es).2 = none → Reaches s { s.afterEvents es with seq := k }) ∧
    ∀ r, (carried s.link es).2 = some r → ∃ u, Reaches s u ∧ Failed s u (carried s.link es).1 r := by
  induction hi generalizing s with
  | nil =>
    refine ⟨fun _ => ?_, fun r h => by simp [carried] at h⟩
    have h : ({ s.afterEvents [] with seq := k } : State) = s := by cases s; simp_all [State.afterEvents]
    rw [h]; exact .refl s
  | @cons m e ms es hm _ ih =>
    cases hm with
    | send bs =>
      have hst := step_quiet_nonunit (k := ms ++ k) hh ht hs rfl
      rcases hl : s.link.headD none with _ | r
      · have h1 : step s = .next (State.sendOk bs { s with seq := ms ++ k }) := by
          rw [hst]; simp only [runMicro, State.send, State.linkCode, State.goto, hl]
        obtain ⟨ih1, ih2⟩ := ih (State.sendOk bs { s with seq := ms ++ k }) hh ht rfl hx hb
        simp only [carried, hl]
        refine ⟨fun h => .step h1 ((afterEvents_seq es _ k (ms ++ k)) ▸ ih1 h), fun r h => ?_⟩
        obtain ⟨u, hu, a1, a2, a3, a4, a5, a6, a7⟩ := ih2 r h
        exact ⟨u, .step h1 hu, a1, a2, a3, a4, a5, by rw [a6]; simp [State.sendOk], a7⟩
      · have h1 : step s = .next (State.sendFail bs r { s with seq := ms ++ k }) := by
          rw [hst]; simp only [runMicro, State.send, State.linkCode, State.goto, hl]
        simp only [carried, hl]
        refine ⟨fun h => by simp at h, fun r' h => ?_⟩
        simp only [Option.some.injEq] at h; subst h
        exact ⟨_, .step h1 (.refl _), by simp [Failed, ht]⟩
    | delay n =>
      have h1 : step s = .next (State.startDelay n { s with seq := ms ++ k }) :=
        (step_quiet_nonunit (k := ms ++ k) hh ht hs rfl).trans rfl
      have h2 := reaches_ticks (State.startDelay n { s with seq := ms ++ k }) hh
      have e1 : ({ (State.startDelay n { s with seq := ms ++ k }) with tmr := 0 } : State) =
          { ({ s with trace := s.trace ++ [.delay n] } : State) with seq := ms ++ k } := by
        cases s; simp_all [State.startDelay]
      rw [e1] at h2
      obtain ⟨ih1, ih2⟩ := ih { ({ s with trace := s.trace ++ [.delay n] } : State) with seq := ms ++ k }
        hh ht rfl hx hb
      simp only [carried]
      refine ⟨fun h => .step h1 (.trans h2 ((afterEvents_seq es _ k (ms ++ k)) ▸ ih1 h)), fun r h => ?_⟩
      obtain ⟨u, hu, a1, a2, a3, a4, a5, a6, a7⟩ := ih2 r h
      exact ⟨u, .step h1 (.trans h2 hu), a1, a2, a3, a4, a5, by rw [a6]; simp, a7⟩
    | recv v =>
      have hst := step_quiet_nonunit (k := ms ++ k) hh ht hs rfl
      have hbf : s.cfg.variant = .bf := hb (by simp [recvs])
      simp only [recvs, List.cons_append] at hx
      rcases hl : s.link.headD none with _ | r
      · have h1 : step s = .next (State.recvOk { s with seq := ms ++ k }) := by
          rw [hst]; simp only [runMicro, State.recv, State.linkCode, State.goto, hl, bfOnly, hbf]
        obtain ⟨ih1, ih2⟩ := ih (State.recvOk { s with seq := ms ++ k }) hh ht rfl (by simp [hx]) (fun _ => hbf)
        simp only [carried, hl]
        refine ⟨fun h => .step h1 ((afterEvents_seq es _ k (ms ++ k)) ▸ ih1 h), fun r h => ?_⟩
        obtain ⟨u, hu, a1, a2, a3, a4, a5, a6, a7⟩ := ih2 r h
        exact ⟨u, .step h1 hu, a1, a2, a3, a4, a5, by rw [a6]; simp [State.recvOk, State.answer, hx], a7⟩
      · have h1 : step s = .next (State.recvFail r { s with seq := ms ++ k }) := by
          rw [hst]; simp only [runMicro, State.recv, State.linkCode, State.goto, hl, bfOnly, hbf]
        simp only [carried, hl]
        refine ⟨fun h => by simp at h, fun r' h => ?_⟩
        simp only [Option.some.injEq] at h; subst h
        exact ⟨_, .step h1 (.refl _), by simp [Failed, ht]⟩

/-- The positions of `write4` issue the events of R100. -/
theorem write4_issues (cfg : Config) (rs : Bool) (n : Nibble) :
    List.Forall₂ Issues (write4Steps cfg rs n) (write4Trace cfg rs n) := by
  simp only [write4Steps, write4Trace, writeBus_eq_busLit]
  repeat (first | exact .nil | refine .cons ?_ ?_ | constructor)

/-- The positions of `read4` issue the events of R101. -/
theorem read4_issues (cfg : Config) (rs : Bool) (v : Byte) :
    List.Forall₂ Issues (read4Steps cfg rs) (read4Trace cfg rs v) := by
  simp only [read4Steps, read4Trace, readBus_eq_busLit]
  repeat (first | exact .nil | refine .cons ?_ ?_ | constructor)

-- A quiet world

/-- In a quiet world a position pushed on `SEQ` is run. -/
theorem quiet_step {s : State} (m : Micro) (h : Quiet s) : step (s.push [m]) = runMicro m s :=
  step_quiet_micro (s := s.push [m]) (rest := s.seq) h.1 h.2.2.2 h.2.2.1 rfl

theorem quiet_run {s t u : State} {m : Micro} (hq : Quiet s) (h : runMicro m s = .next t) (hr : Reaches t u) :
    Reaches (s.push [m]) u := .step ((quiet_step m hq).trans h) hr

/-- The other way round: the first step of a run that leaves the position behind can be taken off. -/
theorem quiet_run_tail {s t u : State} {m : Micro} (hq : Quiet s) (h : runMicro m s = .next t)
    (hr : Reaches (s.push [m]) u) (hne : u.seq ≠ m :: s.seq) : Reaches t u := by
  obtain ⟨n, hn⟩ := hr
  cases n with
  | zero => rw [run_zero] at hn; cases hn; exact absurd rfl hne
  | succ n =>
    obtain ⟨w, hw, hr⟩ := run_succ_next hn
    rw [quiet_step m hq, h] at hw; cases hw
    exact ⟨n, hr⟩

theorem push_append (s : State) (ms ms' : List Micro) : s.push (ms ++ ms') = (s.push ms').push ms := by
  simp [State.push]

end Sys2Proof.Machine
end

