-- ==== Sys2Proof/Laws/Exec.lean ====
section
/-! SUPPORT. What exec answers, instruction by instruction, where its meaning depends on the variant; the rest is by rfl. -/

namespace Sys2Proof.Machine

open Sys2Proof

theorem exec_read4_bf {s : State} {rs : Bool} (h : s.cfg.variant = .bf) :
    exec (.read4 rs) s = .next (s.push (read4Steps s.cfg rs)) := by
  show execRead4 rs s = _
  exact bfOnly_bf h

theorem exec_read8_bf {s : State} {rs : Bool} (h : s.cfg.variant = .bf) :
    exec (.read8 rs) s = .next (State.push [.run (.read4 rs), .readLow rs] { s with phase := .hi }) := by
  show execRead8 rs s = _
  exact bfOnly_bf h

theorem exec_readData_bf {s : State} (h : s.cfg.variant = .bf) :
    exec .readData s = .next (s.push [.unit (.read8 DR), .keepRead, .run .busyWait]) := by
  show execReadData s = _
  exact bfOnly_bf h

theorem exec_busyWait_bf {s : State} (h : s.cfg.variant = .bf) :
    exec .busyWait s = .next (s.push [.unit (.read8 IR), .statusTest]) := by
  show execBusyWait s = _
  exact bfOnly_bf h

theorem exec_status_bf {s : State} {busy : Bool} {g : BitVec 7} (h : s.cfg.variant = .bf) :
    exec (.status busy g) s =
      .next (if busy then State.push [.run .busyWait] { s with bf := true } else { s with bf := false }) := by
  show execStatus busy g s = _
  unfold execStatus
  rw [bfOnly_bf h]
  cases busy <;> rfl

theorem exec_policyWait_bf {s : State} (h : s.cfg.variant = .bf) :
    exec .policyWait s = .next (s.push [.run .busyWait]) := by
  show execPolicyWait s = _
  unfold execPolicyWait; rw [h]

theorem exec_policyWait_fd {s : State} (h : s.cfg.variant = .fd) :
    exec .policyWait s = .next (s.push [.unit (.delay s.cfg.tEXEC)]) := by
  show execPolicyWait s = _
  unfold execPolicyWait; rw [h]

/-- In FD the reading instructions are absent (R101, R131). -/
theorem exec_absent_fd {s : State} (h : s.cfg.variant = .fd) :
    (∀ rs, exec (.read4 rs) s = .refused (.absentInFd "read4")) ∧
    (∀ rs, exec (.read8 rs) s = .refused (.absentInFd "read8")) ∧
    exec .readData s = .refused (.absentInFd "readData") ∧
    exec .busyWait s = .refused (.absentInFd "busyWait") ∧
    ∀ busy g, exec (.status busy g) s = .refused (.absentInFd "STATUS") := by
  refine ⟨fun rs => ?_, fun rs => ?_, ?_, ?_, fun busy g => ?_⟩
  · show execRead4 rs s = _; exact bfOnly_fd h
  · show execRead8 rs s = _; exact bfOnly_fd h
  · show execReadData s = _; exact bfOnly_fd h
  · show execBusyWait s = _; exact bfOnly_fd h
  · show execStatus busy g s = _; exact bfOnly_fd h


-- The host operations

theorem startOperation_busy {r : Request} {check : State → Option Status} {steps : State → List Micro} {s : State}
    (h : s.seq ≠ []) : s.startOperation r check steps = s := by
  unfold State.startOperation; rw [if_pos ((State.busy_eq_true_iff s).2 h)]

theorem startOperation_fault {r : Request} {check : State → Option Status} {steps : State → List Micro} {s : State}
    {e : Status} (hs : s.seq = []) (hc : check (s.latch r) = some e) :
    s.startOperation r check steps = (s.latch r).raise e none := by
  unfold State.startOperation; rw [if_neg (by simp [State.busy, hs]), hc]

theorem startOperation_begin {r : Request} {check : State → Option Status} {steps : State → List Micro} {s : State}
    (hs : s.seq = []) (hc : check (s.latch r) = none) :
    s.startOperation r check steps = (s.latch r).begin (steps (s.latch r)) := by
  unfold State.startOperation; rw [if_neg (by simp [State.busy, hs]), hc]

/-- The operation's own check is the argument fault of the claims. -/
theorem readCheck_eq (s : State) (line : BitVec 1) (column : BitVec 6) (n : Nat) :
    readCheck s = argumentFault s.cfg (.opRead line column n) := by
  unfold readCheck argumentFault
  cases s.cfg.variant <;> rfl

theorem glyphCheck_eq (s : State) (code : BitVec 4) (bitmap : List Byte) :
    glyphCheck (s.latch (defineCharRequest code bitmap)) = argumentFault s.cfg (.opDefineChar code bitmap) := rfl

/-- What a request decodes to is a host operation. -/
theorem decode_request_encodes {r : Request} {i : Instr} (h : decode (.request r) = .ok i) :
    ∃ r', encode i = some (.request r') := by
  change decodeRequest r = .ok i at h
  unfold decodeRequest at h
  repeat' split at h
  all_goals (first | (cases h; exact ⟨_, rfl⟩) | cases h)

/-- An instruction is a host operation or none of its wires is a request. -/
theorem request_or_not (i : Instr) : (∃ r, encode i = some (.request r)) ∨ ∀ r, encode i ≠ some (.request r) := by
  by_cases h : ∃ r, encode i = some (.request r)
  · exact .inl h
  · exact .inr fun r hr => h ⟨r, hr⟩

/-- A request whose stream does not have its length is no instruction (U3). -/
theorem decode_misfit {r : Request} (h : StreamMisfits r) : decode (.request r) = .error .streamLength := by
  show decodeRequest r = _
  unfold decodeRequest
  rcases h with ⟨ho, hl⟩ | ⟨ho, hl⟩ <;> simp [ho, hl]

/-- Every other request is one, well-formed unless its length is above `LEN_MAX` (U3, R88, R89). -/
theorem decode_fits {cfg : Config} {r : Request} (h : ¬StreamMisfits r) :
    ∃ i, decode (.request r) = .ok i ∧ (i.wf cfg = true ↔ ¬LengthTooLong cfg r) := by
  change ∃ i, decodeRequest r = .ok i ∧ _
  unfold decodeRequest
  unfold StreamMisfits at h
  unfold LengthTooLong
  split_ifs <;> simp_all [Instr.wf]
  omega

/-- A host operation answers a next state in every state. -/
theorem exec_request_next {i : Instr} {r : Request} (h : encode i = some (.request r)) (s : State) :
    ∃ t, exec i s = .next t := by
  cases i <;> first | exact ⟨_, rfl⟩ | cases h

/-- In BF every instruction answers a next state, in every state. -/
theorem exec_next_bf {s : State} (h : s.cfg.variant = .bf) (i : Instr) : ∃ t, exec i s = .next t := by
  cases i
  case status => exact ⟨_, exec_status_bf h⟩
  case read4 => exact ⟨_, exec_read4_bf h⟩
  case read8 => exact ⟨_, exec_read8_bf h⟩
  case readData => exact ⟨_, exec_readData_bf h⟩
  case policyWait => exact ⟨_, exec_policyWait_bf h⟩
  case busyWait => exact ⟨_, exec_busyWait_bf h⟩
  all_goals exact ⟨_, rfl⟩

/-- A request that decodes to a well-formed instruction is accepted (R33). -/
theorem accept_next_of_wf {c : Bool} {r : Request} {s : State} {i : Instr} (hd : decode (.request r) = .ok i)
    (hw : i.wf s.cfg = true) : ∃ t, accept c r s = .next t := by
  obtain ⟨r', hr'⟩ := decode_request_encodes hd
  obtain ⟨t, ht⟩ := exec_request_next hr' { s with req := none }
  refine ⟨State.raiseCancel c t, ?_⟩
  unfold accept
  rw [hd]
  simp only [hw, if_true]
  rw [ht]
  rfl

end Sys2Proof.Machine
end

