-- ==== Sys2Proof/Laws/PerInstr.lean ====
section
/-! SUPPORT. What is said instruction by instruction. RowPattern: the word of an instruction's encoding meets the match and the mask of its row of spec/opcode_table.json. -/

/-- An encoded instruction's word has the bits its row fixes ("a byte `b` is of the form when `b & mask = match`",
R75); an INTERNAL instruction has neither an encoding nor a pattern. -/
def Sys2Proof.Laws.RowPattern.Statement (i : Sys2Proof.Instr) : Prop :=
  match Sys2Proof.encode i, Sys2Proof.rowPattern i with
  | some w, some (bits, mask) => Sys2Proof.wireWord w &&& mask = bits
  | none, none => True
  | _, _ => False

open Sys2Proof

theorem Sys2Proof.Laws.RowPattern.cmdClear : Sys2Proof.Laws.RowPattern.Statement .cmdClear := rfl

theorem Sys2Proof.Laws.RowPattern.cmdHome : Sys2Proof.Laws.RowPattern.Statement .cmdHome := rfl

theorem Sys2Proof.Laws.RowPattern.cmdEntryMode (l s : Bool) : Sys2Proof.Laws.RowPattern.Statement (.cmdEntryMode l s) := by
  show entryModeByte l s &&& 0xFC#8 = 0x04#8
  revert l s
  decide

theorem Sys2Proof.Laws.RowPattern.cmdDisplayControl (d c b : Bool) : Sys2Proof.Laws.RowPattern.Statement (.cmdDisplayControl d c b) := by
  show displayControlByte d c b &&& 0xF8#8 = 0x08#8
  revert d c b
  decide

theorem Sys2Proof.Laws.RowPattern.cmdFunctionSet : Sys2Proof.Laws.RowPattern.Statement .cmdFunctionSet := rfl

theorem Sys2Proof.Laws.RowPattern.cmdSetCgram (a : BitVec 6) : Sys2Proof.Laws.RowPattern.Statement (.cmdSetCgram a) := by
  show setCgramByte a &&& 0xC0#8 = 0x40#8
  revert a
  decide

theorem Sys2Proof.Laws.RowPattern.cmdSetDdram (a : BitVec 7) : Sys2Proof.Laws.RowPattern.Statement (.cmdSetDdram a) := by
  show setDdramByte a &&& 0x80#8 = 0x80#8
  revert a
  decide

theorem Sys2Proof.Laws.RowPattern.data (b : Byte) : Sys2Proof.Laws.RowPattern.Statement (.data b) := by
  show b &&& 0x00#8 = 0x00#8
  revert b
  decide

theorem Sys2Proof.Laws.RowPattern.initNibble3 : Sys2Proof.Laws.RowPattern.Statement .initNibble3 := rfl

theorem Sys2Proof.Laws.RowPattern.initNibble2 : Sys2Proof.Laws.RowPattern.Statement .initNibble2 := rfl

theorem Sys2Proof.Laws.RowPattern.status (busy : Bool) (ignored : BitVec 7) : Sys2Proof.Laws.RowPattern.Statement (.status busy ignored) := by
  show (BitVec.ofBool busy ++ ignored) &&& 0x00#8 = 0x00#8
  revert busy ignored
  decide

theorem Sys2Proof.Laws.RowPattern.opInit : Sys2Proof.Laws.RowPattern.Statement .opInit := rfl

theorem Sys2Proof.Laws.RowPattern.opClear : Sys2Proof.Laws.RowPattern.Statement .opClear := rfl

theorem Sys2Proof.Laws.RowPattern.opHome : Sys2Proof.Laws.RowPattern.Statement .opHome := rfl

theorem Sys2Proof.Laws.RowPattern.opEntryMode (l s : Bool) : Sys2Proof.Laws.RowPattern.Statement (.opEntryMode l s) := by
  show (0x3#4).setWidth 8 &&& 0x0F#8 = 0x03#8
  decide

theorem Sys2Proof.Laws.RowPattern.opDisplayControl (d c b : Bool) : Sys2Proof.Laws.RowPattern.Statement (.opDisplayControl d c b) := by
  show (0x4#4).setWidth 8 &&& 0x0F#8 = 0x04#8
  decide

theorem Sys2Proof.Laws.RowPattern.opWrite (line : BitVec 1) (column : BitVec 6) (bytes : List Byte) : Sys2Proof.Laws.RowPattern.Statement (.opWrite line column bytes) := by
  show (0x5#4).setWidth 8 &&& 0x0F#8 = 0x05#8
  decide

theorem Sys2Proof.Laws.RowPattern.opRead (line : BitVec 1) (column : BitVec 6) (length : Nat) : Sys2Proof.Laws.RowPattern.Statement (.opRead line column length) := by
  show (0x6#4).setWidth 8 &&& 0x0F#8 = 0x06#8
  decide

theorem Sys2Proof.Laws.RowPattern.opDefineChar (code : BitVec 4) (bitmap : List Byte) : Sys2Proof.Laws.RowPattern.Statement (.opDefineChar code bitmap) := by
  show (0x7#4).setWidth 8 &&& 0x0F#8 = 0x07#8
  decide

theorem Sys2Proof.Laws.RowPattern.opReserved (low : BitVec 3) : Sys2Proof.Laws.RowPattern.Statement (.opReserved low) := by
  show Sys2Proof.wireWord (.request (Sys2Proof.reservedRequest low)) &&& 0x08#8 = 0x08#8
  revert low
  decide

theorem Sys2Proof.Laws.RowPattern.write4 (rs : Bool) (n : Nibble) : Sys2Proof.Laws.RowPattern.Statement (.write4 rs n) := trivial

theorem Sys2Proof.Laws.RowPattern.read4 (rs : Bool) : Sys2Proof.Laws.RowPattern.Statement (.read4 rs) := trivial

theorem Sys2Proof.Laws.RowPattern.write8 (rs : Bool) (b : Byte) : Sys2Proof.Laws.RowPattern.Statement (.write8 rs b) := trivial

theorem Sys2Proof.Laws.RowPattern.read8 (rs : Bool) : Sys2Proof.Laws.RowPattern.Statement (.read8 rs) := trivial

theorem Sys2Proof.Laws.RowPattern.doCmd (b : Byte) : Sys2Proof.Laws.RowPattern.Statement (.doCmd b) := trivial

theorem Sys2Proof.Laws.RowPattern.doData (b : Byte) : Sys2Proof.Laws.RowPattern.Statement (.doData b) := trivial

theorem Sys2Proof.Laws.RowPattern.readData : Sys2Proof.Laws.RowPattern.Statement .readData := trivial

theorem Sys2Proof.Laws.RowPattern.policyWait : Sys2Proof.Laws.RowPattern.Statement .policyWait := trivial

theorem Sys2Proof.Laws.RowPattern.busyWait : Sys2Proof.Laws.RowPattern.Statement .busyWait := trivial

theorem Sys2Proof.Laws.RowPattern.delay (n : Nat) : Sys2Proof.Laws.RowPattern.Statement (.delay n) := trivial
end

