-- ==== Sys2Proof/Laws/Shape.lean ====
section
/-! SUPPORT. What the invariant's clauses about SEQ need when a position is replaced by its expansion. -/

namespace Sys2Proof.Machine

open Sys2Proof

/-- The position reached is replaced by `ms`: positions inside a critical section, or, where the position was not in
one, positions outside. The shape of `SEQ` stays, and something is left. -/
theorem seqShape_expand {m : Micro} {k ms : List Micro} (h : SeqShape (m :: k)) (hm : m ≠ .finish)
    (hms : (∀ x ∈ ms, x.inCodec = true) ∨ (m.inCodec = false ∧ ∀ x ∈ ms, x.inCodec = false ∧ x ≠ .finish)) :
    SeqShape (ms ++ k) ∧ k ≠ [] := by
  rcases h with h | ⟨codec, body, h, h1, h2⟩
  · cases h
  have key : ∃ codec' body', k = codec' ++ body' ++ [.finish] ∧ (∀ x ∈ codec', x.inCodec = true) ∧
      (∀ x ∈ body', x.inCodec = false ∧ x ≠ .finish) ∧ (m.inCodec = false → codec' = []) := by
    cases codec with
    | nil =>
      cases body with
      | nil => simp at h; exact absurd h.1 hm
      | cons b body =>
        simp at h
        obtain ⟨rfl, rfl⟩ := h
        exact ⟨[], body, by simp, by simp, fun x hx => h2 x (by simp [hx]), by simp⟩
    | cons c codec =>
      simp at h
      obtain ⟨rfl, rfl⟩ := h
      refine ⟨codec, body, by simp, fun x hx => h1 x (by simp [hx]), h2, fun h => ?_⟩
      have := h1 m (by simp); rw [h] at this; cases this
  obtain ⟨codec', body', rfl, h3, h4, h5⟩ := key
  refine ⟨.inr ?_, by simp⟩
  rcases hms with hms | ⟨ha, hms⟩
  · exact ⟨ms ++ codec', body', by simp, fun x hx => (List.mem_append.1 hx).elim (hms x) (h3 x), h4⟩
  · rw [h5 ha]
    exact ⟨[], ms ++ body', by simp, by simp, fun x hx => (List.mem_append.1 hx).elim (hms x) (h4 x)⟩

/-- Completion is the last position. -/
theorem seqShape_finish {k : List Micro} (h : SeqShape (.finish :: k)) : k = [] := by
  rcases h with h | ⟨codec, body, h, h1, h2⟩
  · cases h
  · cases codec with
    | nil =>
      cases body with
      | nil => simpa using h
      | cons b body => simp at h; exact absurd h.1.symm (h2 b (by simp)).2
    | cons c codec =>
      simp at h
      have := h1 c (by simp)
      rw [← h.1] at this
      cases this

/-- Positions that neither send nor stand in the middle of a nibble, before what settles from any released bus. -/
theorem settles_outside {ms k : List Micro} {b : BusState} (h : ∀ x ∈ ms, x.sent = none ∧ x.midNibble = false)
    (hb : Released b) (hk : ∀ b', Released b' → Settles b' k) : Settles b (ms ++ k) := by
  induction ms generalizing b with
  | nil => exact hk b hb
  | cons m ms ih =>
    have hm := h m (by simp)
    simp only [List.cons_append, Settles, hm.1, hm.2]
    exact ⟨hb, fun b' hb' => ih (fun x hx => h x (by simp [hx])) hb'⟩

theorem settles_write4 (cfg : Config) (rs : Bool) (n : Nibble) {k : List Micro} {b : BusState} (hb : Released b)
    (hk : ∀ b', Released b' → Settles b' k) : Settles b (write4Steps cfg rs n ++ k) := by
  simp [write4Steps, Settles, Micro.sent, Micro.midNibble, EdgeOk, writeBus, hb.1]
  exact hk _ ⟨rfl, rfl⟩

theorem settles_read4 (cfg : Config) (rs : Bool) {k : List Micro} {b : BusState} (hb : Released b)
    (hk : ∀ b', Released b' → Settles b' k) : Settles b (read4Steps cfg rs ++ k) := by
  simp [read4Steps, Settles, Micro.sent, Micro.midNibble, EdgeOk, readBus, hb.1]
  exact hk _ ⟨rfl, rfl⟩

theorem legal_write4Steps (cfg : Config) (rs : Bool) (n : Nibble) : ∀ x ∈ write4Steps cfg rs n, x.legal cfg = true := by
  have h1 := le_maxDelay cfg (n := cfg.tAS) (by simp)
  have h2 := le_maxDelay cfg (n := cfg.tPW) (by simp)
  have h3 := le_maxDelay cfg (n := cfg.tCYCR) (by simp)
  simp [write4Steps, Micro.legal, writeBus, rwField_isSome, isBf, runLegal, h1, h2, h3]

theorem legal_read4Steps {cfg : Config} (rs : Bool) (hb : isBf cfg = true) :
    ∀ x ∈ read4Steps cfg rs, x.legal cfg = true := by
  have h1 := le_maxDelay cfg (n := cfg.tAS) (by simp)
  have h2 := le_maxDelay cfg (n := cfg.tDDR) (by simp)
  have h3 := le_maxDelay cfg (n := cfg.tCYCR) (by simp)
  have h4 := le_maxDelay cfg (n := cfg.tRDH) (by simp)
  simp [read4Steps, Micro.legal, readBus, rwField_isSome, isBf, runLegal, h1, h2, h3, h4] at hb ⊢
  simp [hb]

theorem isBf_iff {cfg : Config} : isBf cfg = true ↔ cfg.variant = .bf := by simp [isBf]

/-- The command formulas give bytes that R91 does not exclude. -/
theorem emittedCommand_formulas :
    (∀ l r, emittedCommand (entryModeByte l r) = true) ∧
    (∀ d c b, emittedCommand (displayControlByte d c b) = true) ∧
    (∀ a : BitVec 6, a &&& 7#6 = 0#6 → emittedCommand (setCgramByte a) = true) ∧
    ∀ a : BitVec 7, emittedCommand (setDdramByte a) = true := by decide

/-- Glyph addresses are multiples of eight (R86). -/
theorem cgramAddress_low (c : BitVec 4) : cgramAddress c &&& 7#6 = 0#6 := by revert c; decide

/-- A position `SEQ` may hold is run: it answers a next state (R131). -/
theorem runMicro_next_of_legal {m : Micro} {s : State} (h : m.legal s.cfg = true) : ∃ t, runMicro m s = .next t := by
  cases hv : s.cfg.variant with
  | bf =>
    cases m with
    | run i | unit i => exact exec_next_bf hv i
    | statusTest => exact exec_next_bf hv (decodeStatus s.byte)
    | recv => exact ⟨_, bfOnly_bf hv⟩
    | _ => exact ⟨_, rfl⟩
  | fd =>
    have hb : isBf s.cfg = false := by simp [isBf, hv]
    cases m with
    | run i => cases i <;> first
        | exact ⟨_, exec_policyWait_fd hv⟩
        | (simp [Micro.legal, runLegal, hb] at h; done)
        | exact ⟨_, rfl⟩
    | unit i => cases i <;> first
        | (simp [Micro.legal, unitLegal, hb] at h; done)
        | exact ⟨_, rfl⟩
    | _ => first
        | exact ⟨_, rfl⟩
        | simp [Micro.legal, hb] at h

end Sys2Proof.Machine
end

