-- ==== Sys2Proof/Tests/Slice0.lean ====
section
/-! SUPPORT. Tests: each check of WellFormed, the decoder against words written out from 30_encoding.md, one step of each meaning against 95_test_vectors.md, and for every obligation with hypotheses a state that meets them. -/

open Sys2Proof Sys2Proof.Machine

namespace Sys2Proof.Tests

-- Small states

/-- The configuration of an FD session. -/
def fdCfg : Config := { Config.session with variant := .fd }

def bf0 : State := State.reset
def fd0 : State := State.resetWith fdCfg

/-- The state an instruction leads to, if it answers one. -/
def after (o : Host.Outcome State Fault Refusal) : Option State :=
  match o with
  | .next s => some s
  | _ => none

/-- Why an instruction is refused, if it is. -/
def refusal (o : Host.Outcome State Fault Refusal) : Option Refusal :=
  match o with
  | .refused r => some r
  | _ => none

def seqAfter (i : Instr) (s : State) : Option (List Micro) := (after (exec i s)).map (·.seq)

-- WellFormed: one ill-formed term for each check

theorem test_wf_write_too_long :
    (Instr.opWrite 1#1 0x3F#6 [1#8, 2#8]).wf { Config.session with lenMax := 2 } = true ∧
    (Instr.opWrite 0#1 0#6 [1#8, 2#8, 3#8]).wf { Config.session with lenMax := 2 } = false := by decide
theorem test_wf_read_too_long :
    (Instr.opRead 0#1 0#6 128).wf Config.session = true ∧ (Instr.opRead 0#1 0#6 129).wf Config.session = false := by
  decide
theorem test_wf_bitmap_too_long :
    (Instr.opDefineChar 0#4 (List.replicate 15 0#8)).wf Config.session = true ∧
    (Instr.opDefineChar 0#4 (List.replicate 16 0#8)).wf Config.session = false := by decide
theorem test_wf_reads_absent_in_fd :
    (Instr.read4 true).wf fdCfg = false ∧ (Instr.read8 true).wf fdCfg = false ∧ Instr.readData.wf fdCfg = false ∧
    Instr.busyWait.wf fdCfg = false ∧ (Instr.status false 0#7).wf fdCfg = false := by decide
theorem test_wf_reads_present_in_bf :
    (Instr.read4 true).wf Config.session = true ∧ (Instr.read8 true).wf Config.session = true ∧
    Instr.readData.wf Config.session = true ∧ Instr.busyWait.wf Config.session = true ∧
    (Instr.status false 0#7).wf Config.session = true := by decide
theorem test_wf_delay_too_long :
    (Instr.delay 4100000).wf Config.session = true ∧ (Instr.delay 4100001).wf Config.session = false := by decide

-- Decode: words written out from the encodings of 30_encoding.md

/-- R76, R77. -/
theorem test_decode_clear : decodeCmd 0b00000001#8 = .ok .cmdClear := by decide
theorem test_decode_home : decodeCmd 0b00000010#8 = .ok .cmdHome := by decide
/-- R78: bits 1 and 0 are L and S; TV-22: the two are independent. -/
theorem test_decode_entry_mode :
    decodeCmd 0b00000110#8 = .ok (.cmdEntryMode true false) ∧
    decodeCmd 0b00000101#8 = .ok (.cmdEntryMode false true) := by decide
/-- R79: bits 2, 1, 0 are D, C, B; TV-21. -/
theorem test_decode_display_control :
    decodeCmd 0b00001100#8 = .ok (.cmdDisplayControl true false false) ∧
    decodeCmd 0b00001010#8 = .ok (.cmdDisplayControl false true false) ∧
    decodeCmd 0b00001001#8 = .ok (.cmdDisplayControl false false true) := by decide
/-- R82. -/
theorem test_decode_function_set : decodeCmd 0b00101000#8 = .ok .cmdFunctionSet := by decide
/-- R80, R81: the highest address of each. -/
theorem test_decode_set_cgram : decodeCmd 0b01111111#8 = .ok (.cmdSetCgram 0b111111#6) := by decide
theorem test_decode_set_ddram :
    decodeCmd 0b11111111#8 = .ok (.cmdSetDdram 0b1111111#7) ∧ decodeCmd 0b11000000#8 = .ok (.cmdSetDdram 0x40#7) := by
  decide
/-- R91: bytes no command form has. -/
theorem test_decode_no_command :
    decodeCmd 0x00#8 = .error .noSuchCommand ∧ decodeCmd 0x03#8 = .error .noSuchCommand ∧
    decodeCmd 0x10#8 = .error .noSuchCommand ∧ decodeCmd 0x1F#8 = .error .noSuchCommand ∧
    decodeCmd 0x20#8 = .error .noSuchCommand ∧ decodeCmd 0x3F#8 = .error .noSuchCommand := by decide
/-- R84: a data byte has no structure the engine looks at. -/
theorem test_decode_data : decode (.data 0x01#8) = .ok (.data 0x01#8) := by decide
/-- R83, R92. -/
theorem test_decode_nibbles :
    decodeNibble 0b0011#4 = .ok .initNibble3 ∧ decodeNibble 0b0010#4 = .ok .initNibble2 ∧
    decodeNibble 0b0101#4 = .error .noSuchNibble := by decide
/-- R74: bit 7 is the busy flag. -/
theorem test_decode_status :
    decode (.status 0b10000011#8) = .ok (.status true 0b0000011#7) ∧
    decode (.status 0b01111111#8) = .ok (.status false 0b1111111#7) := by decide
/-- R88: the selectors. -/
theorem test_decode_requests :
    decodeRequest { opsel := 0b0000#4 } = .ok .opInit ∧ decodeRequest { opsel := 0b0001#4 } = .ok .opClear ∧
    decodeRequest { opsel := 0b0010#4 } = .ok .opHome ∧
    decodeRequest { opsel := 0b0011#4, flags := 0b010#3 } = .ok (.opEntryMode true false) ∧
    decodeRequest { opsel := 0b0100#4, flags := 0b100#3 } = .ok (.opDisplayControl true false false) := by decide
/-- R88: the operands of WRITE, READ and DEFINE_CHAR. -/
theorem test_decode_request_operands :
    decodeRequest { opsel := 0b0101#4, line := 1#1, column := 5#6, len := 1, stream := [0x48#8] } =
      .ok (.opWrite 1#1 5#6 [0x48#8]) ∧
    decodeRequest { opsel := 0b0110#4, line := 0#1, column := 39#6, len := 2 } = .ok (.opRead 0#1 39#6 2) ∧
    decodeRequest { opsel := 0b0111#4, code := 3#4, blen := 2#4, stream := [1#8, 2#8] } =
      .ok (.opDefineChar 3#4 [1#8, 2#8]) := by decide
/-- R89: the reserved selectors; R88: an operand not listed is ignored. -/
theorem test_decode_reserved :
    decodeRequest { opsel := 0b1000#4 } = .ok (.opReserved 0#3) ∧
    decodeRequest { opsel := 0b1111#4, code := 5#4, len := 9 } = .ok (.opReserved 7#3) := by decide
/-- R88: a stream that has not the length of its port is no request. -/
theorem test_decode_stream_length :
    decodeRequest { opsel := 0b0101#4, len := 2, stream := [0x48#8] } = .error .streamLength ∧
    decodeRequest { opsel := 0b0111#4, blen := 8#4, stream := [] } = .error .streamLength := by decide

-- Encode: the worked values of 95_test_vectors.md

/-- TV-21, TV-22. -/
theorem test_encode_formulas :
    encode (.cmdDisplayControl true true false) = some (.cmd 0x0E#8) ∧
    encode (.cmdDisplayControl false false true) = some (.cmd 0x09#8) ∧
    encode (.cmdEntryMode true false) = some (.cmd 0x06#8) ∧
    encode (.cmdEntryMode false true) = some (.cmd 0x05#8) := by decide
/-- TV-25, TV-28. -/
theorem test_encode_addresses :
    encode (.cmdSetDdram (ddramAddress 0#1 63#6)) = some (.cmd 0xBF#8) ∧
    encode (.cmdSetDdram (ddramAddress 1#1 39#6)) = some (.cmd 0xE7#8) ∧
    encode (.cmdSetDdram (ddramAddress 1#1 63#6)) = some (.cmd 0xFF#8) ∧
    encode (.cmdSetCgram (cgramAddress 3#4)) = some (.cmd 0x58#8) ∧
    encode (.cmdSetCgram (cgramAddress 7#4)) = some (.cmd 0x78#8) := by decide

-- The table's words (log 20)

theorem test_table_words :
    decodeTableWord 8 0x5 = some (.opWrite 0#1 0#6 []) ∧ decodeTableWord 8 0x28 = some .cmdFunctionSet ∧
    decodeTableWord 8 0xC0 = some (.cmdSetDdram 0x40#7) ∧ decodeTableWord 8 0x20 = none ∧
    decodeTableWord 0 0 = none := by decide
/-- A request word runs as the first instruction after reset: HOME begins. -/
theorem test_fetch_request :
    (after (step (bf0.withFetchWord 8 0x2))).map (·.seq) = some [.run .cmdHome, .finish] := by decide
/-- A command word too. -/
theorem test_fetch_command :
    (after (step (bf0.withFetchWord 8 0x85))).map (·.seq) = some [.run (.doCmd 0x85#8), .finish] := by decide

-- The nibble codec

/-- TV-1 and TV-3: the sends of `write4`, BF; a nibble of zero is driven. -/
theorem test_write4_bf :
    (seqAfter (.write4 false 3#4) bf0) = some
      [ .send ⟨false, some false, false, some 3#4⟩, .run (.delay Config.session.tAS),
        .send ⟨false, some false, true, some 3#4⟩, .run (.delay Config.session.tPW),
        .send ⟨false, some false, false, some 3#4⟩, .run (.delay Config.session.tCYCR),
        .send ⟨false, some false, false, none⟩ ] := by decide
/-- TV-2: in FD there is no `rw`. -/
theorem test_write4_fd :
    (seqAfter (.write4 false 3#4) fd0).bind (·.head?) = some (.send ⟨false, none, false, some 3#4⟩) := by decide
/-- TV-4: the events of `read4`. -/
theorem test_read4_bf :
    (seqAfter (.read4 false) bf0) = some
      [ .send ⟨false, some true, false, none⟩, .run (.delay Config.session.tAS),
        .send ⟨false, some true, true, none⟩, .run (.delay Config.session.tDDR), .recv,
        .run (.delay Config.session.tRDH), .send ⟨false, some true, false, none⟩,
        .run (.delay Config.session.tCYCR) ] := by decide
theorem test_read4_fd : refusal (exec (.read4 false) fd0) = some (.absentInFd "read4") := by decide
/-- TV-4: the upper four bits of the received byte are dropped. -/
theorem test_recv_drops_upper_bits :
    ({ bf0 with rx := [0x8A#8] } : State).recv.byte = 0xA0#8 ∧
    ({ bf0 with rx := [0x8A#8], byte := 0x40#8, phase := .lo } : State).recv.byte = 0x4A#8 := by decide
/-- TV-6: 0x28 is sent as 2 and then 8. -/
theorem test_write8_high_first :
    seqAfter (.write8 true 0x28#8) bf0 = some [.run (.write4 true 2#4), .writeLow true] ∧
    (after (step { bf0 with seq := [.writeLow true, .finish], byte := 0x28#8 })).map (·.seq) =
      some [.run (.write4 true 8#4), .finish] := by decide
/-- TV-7: 0xF8 and then 0xF0 give 0x80. -/
theorem test_read8_joins :
    seqAfter (.read8 true) bf0 = some [.run (.read4 true), .readLow true] ∧
    collectNibble .lo (collectNibble .hi 0x5A#8 (recvNibble 0xF8#8)) (recvNibble 0xF0#8) = 0x80#8 := by decide

-- The timer and the busy flag

/-- TV-17. -/
theorem test_timer_counts :
    ticksFor { Config.session with tickNs := 3000 } 37000 = 13 ∧ ticksFor { Config.session with tickNs := 1000 } 1 = 1 ∧
    ticksFor { Config.session with tickNs := 1000 } 0 = 0 ∧ ticksFor { Config.session with tickNs := 8 } 4100000 = 512500 := by
  decide
/-- TV-17: 4 100 000 ticks need 22 bits; in ticks of 8 ns, 19. -/
theorem test_timer_width :
    timerWidth Config.session = 22 ∧ timerWidth { Config.session with tickNs := 8 } = 19 := by decide
theorem test_delay_loads_timer :
    (after (exec (.delay 37000) bf0)).map (fun s => (s.tmr, s.trace)) = some (37000, [.delay 37000]) := by decide
/-- R138: a running timer holds the sequencer. -/
theorem test_tick :
    (after (step { bf0 with tmr := 2, seq := [.finish] })).map (fun s => (s.tmr, s.seq)) = some (1, [.finish]) := by decide
/-- TV-15: 0x7F is free, 0x80 is busy. -/
theorem test_status_busy :
    (after (exec (decodeStatus 0x80#8) bf0)).map (fun s => (s.bf, s.seq)) = some (true, [.run .busyWait]) ∧
    (after (exec (decodeStatus 0x7F#8) bf0)).map (fun s => (s.bf, s.seq)) = some (false, []) := by decide
theorem test_busyWait_polls_ir : seqAfter .busyWait bf0 = some [.unit (.read8 false), .statusTest] := by decide
/-- TV-16. -/
theorem test_policyWait :
    seqAfter .policyWait bf0 = some [.run .busyWait] ∧ seqAfter .policyWait fd0 = some [.unit (.delay 37000)] := by decide

-- The command sequencer

/-- TV-12, TV-13: the command goes to IR, the data to DR. -/
theorem test_doCmd : seqAfter (.doCmd 0x01#8) bf0 = some [.unit (.write8 false 0x01#8), .run .policyWait] := by decide
theorem test_doData : seqAfter (.doData 0x41#8) bf0 = some [.unit (.write8 true 0x41#8), .run .policyWait] := by decide
/-- TV-14: the value is kept before the busy-wait. -/
theorem test_readData : seqAfter .readData bf0 = some [.unit (.read8 true), .keepRead, .run .busyWait] := by decide
theorem test_readData_keeps :
    (after (step { bf0 with seq := [.keepRead, .finish], byte := 0x48#8 })).map (·.rdata) = some 0x48#8 := by decide
theorem test_cmd_clear : seqAfter .cmdClear bf0 = some [.run (.doCmd 0x01#8)] := by decide
theorem test_cmd_home : seqAfter .cmdHome bf0 = some [.run (.doCmd 0x02#8)] := by decide
theorem test_cmd_entryMode : seqAfter (.cmdEntryMode false true) bf0 = some [.run (.doCmd 0x05#8)] := by decide
theorem test_cmd_displayControl : seqAfter (.cmdDisplayControl true false true) bf0 = some [.run (.doCmd 0x0D#8)] := by decide
theorem test_cmd_functionSet : seqAfter .cmdFunctionSet bf0 = some [.run (.doCmd 0x28#8)] := by decide
theorem test_cmd_setCgram : seqAfter (.cmdSetCgram 24#6) bf0 = some [.run (.doCmd 0x58#8)] := by decide
theorem test_cmd_setDdram : seqAfter (.cmdSetDdram 0x4F#7) bf0 = some [.run (.doCmd 0xCF#8)] := by decide
theorem test_data : seqAfter (.data 0xFF#8) bf0 = some [.run (.doData 0xFF#8)] := by decide
theorem test_init_nibbles :
    seqAfter .initNibble3 bf0 = some [.unit (.write4 false 3#4)] ∧
    seqAfter .initNibble2 bf0 = some [.unit (.write4 false 2#4)] := by decide

-- The host operations

/-- TV-18: the steps of INIT in FD, the extended settle after the clear. -/
theorem test_init_fd :
    seqAfter .opInit fd0 = some
      [ .run .initNibble3, .unit (.delay 4100000), .run .initNibble3, .unit (.delay 100000), .run .initNibble3,
        .unit (.delay 37000), .run .initNibble2, .run .policyWait, .run .cmdFunctionSet,
        .run (.cmdDisplayControl false false false), .run .cmdClear, .unit (.delay 1520000),
        .run (.cmdEntryMode true false), .run (.cmdDisplayControl true false false), .finish ] := by decide
/-- TV-23, TV-24. -/
theorem test_clear :
    seqAfter .opClear bf0 = some [.run .cmdClear, .finish] ∧
    seqAfter .opClear fd0 = some [.run .cmdClear, .unit (.delay 1520000), .finish] := by decide
theorem test_home : seqAfter .opHome fd0 = some [.run .cmdHome, .finish] := by decide
theorem test_entryMode : seqAfter (.opEntryMode false true) bf0 = some [.run (.cmdEntryMode false true), .finish] := by decide
theorem test_displayControl :
    seqAfter (.opDisplayControl true false true) bf0 = some [.run (.cmdDisplayControl true false true), .finish] := by decide
/-- TV-25: line 1, column 15. -/
theorem test_write :
    seqAfter (.opWrite 1#1 15#6 [0x48#8]) bf0 = some [.run (.cmdSetDdram 0x4F#7), .startData, .dataLoop, .finish] := by decide
/-- R164: one byte left, then none. -/
theorem test_write_loop :
    (after (step { bf0 with seq := [.dataLoop, .finish], op := 5#4, aLen := 1, aBytes := [0x48#8] })).map (·.seq) =
      some [.run (.data 0x48#8), .byteSent, .dataLoop, .finish] ∧
    (after (step { bf0 with seq := [.dataLoop, .finish], op := 5#4, aLen := 1, aBytes := [0x48#8], idx := 1 })).map (·.seq) =
      some [.finish] := by decide
theorem test_read :
    seqAfter (.opRead 0#1 0#6 2) bf0 = some [.run (.cmdSetDdram 0#7), .startData, .dataLoop, .finish] := by decide
/-- TV-29: in FD it is Unsupported, without an event. -/
theorem test_read_fd :
    (after (exec (.opRead 0#1 0#6 2) fd0)).map (fun s => (s.seq, s.status, s.trace, s.responses)) =
      some ([], .unsupported, [], [⟨.unsupported, [], none⟩]) := by decide
/-- TV-28: glyph 3. -/
theorem test_defineChar :
    seqAfter (.opDefineChar 3#4 (List.replicate 8 0#8)) bf0 =
      some [.run (.cmdSetCgram 24#6), .startData, .dataLoop, .finish] := by decide
/-- TV-30: code 8, and seven rows. -/
theorem test_defineChar_invalid :
    (after (exec (.opDefineChar 8#4 (List.replicate 8 0#8)) bf0)).map (fun s => (s.seq, s.status)) =
      some ([], .invalidArgument) ∧
    (after (exec (.opDefineChar 3#4 (List.replicate 7 0#8)) bf0)).map (fun s => (s.seq, s.status)) =
      some ([], .invalidArgument) := by decide
/-- TV-30: opsel 0x8. -/
theorem test_reserved :
    (after (exec (.opReserved 0#3) bf0)).map (fun s => (s.seq, statusCode s.status, s.trace)) =
      some ([], 1#3, []) := by decide

-- Faults and cancellation

/-- TV-31: a failing send is the last event. -/
theorem test_send_fails :
    (after (step { fd0 with seq := [.send ⟨false, none, true, some 0#4⟩, .finish], link := [some 7] })).map
        (fun s => (s.seq, s.trace, s.responses)) =
      some ([], [.sendFailed ⟨false, none, true, some 0#4⟩], [⟨.transportFailure, [], some 7⟩]) := by decide
/-- TV-33: a cancel pending before the clear's first unit leaves the trace empty. -/
theorem test_cancel_before_unit :
    (after (step { fd0 with seq := [.unit (.write8 false 1#8), .finish], cancelPend := true })).map
        (fun s => (s.seq, statusCode s.status, s.trace, s.cancelPend)) = some ([], 4#3, [], false) := by decide
/-- TV-36: a cancel after the last unit is dropped and the status is 0. -/
theorem test_cancel_too_late :
    (after (step { fd0 with seq := [.finish], cancelPend := true })).map (fun s => (s.seq, statusCode s.status, s.cancelPend)) =
      some ([], 0#3, false) := by decide
/-- TV-36: a cancel while idle has no effect. -/
theorem test_cancel_idle :
    (after (step { fd0 with host := [{ cancel := true }] })).map (fun s => (s.seq, s.cancelPend, s.responses)) =
      some ([], false, []) := by decide
/-- U3: a request beyond its ports is refused by name. -/
theorem test_malformed :
    refusal (step { bf0 with req := some { opsel := 5#4, len := 1 } }) = some (.malformedRequest .streamLength) ∧
    refusal (step { bf0 with req := some { opsel := 6#4, len := 129 } }) = some .operandOutOfRange := by decide

-- Witnesses: states that meet the hypotheses of the obligations

/-- One poll that reads 0x83 (TV-7), then one that reads 0x7F (TV-15). -/
def twoPolls : Polls := ⟨[(0x08#8, 0x03#8)], (0x07#8, 0x0F#8)⟩
/-- One poll that reads 0x00. -/
def onePoll : Polls := ⟨[], (0x00#8, 0x00#8)⟩

theorem test_polls_valid : twoPolls.Valid ∧ onePoll.Valid := by
  refine ⟨⟨?_, by decide⟩, ⟨fun v hv => ?_, by decide⟩⟩
  · intro v hv; rw [List.mem_singleton.1 hv]; decide
  · cases hv

theorem quiet_bf (rx : List Byte) : QuietIdle { bf0 with rx := rx } := ⟨⟨rfl, rfl, rfl, rfl⟩, rfl⟩
theorem quiet_fd (rx : List Byte) : QuietIdle { fd0 with rx := rx } := ⟨⟨rfl, rfl, rfl, rfl⟩, rfl⟩

theorem waits_two : WaitsOk Config.session [twoPolls] := by
  intro _ w hw; rw [List.mem_singleton.1 hw]; exact test_polls_valid.1
theorem waits_fd (ws : List Polls) : WaitsOk fdCfg ws := by intro h; cases h

theorem test_witness_DecodeOfEncodeIsTheInstruction :
    (Instr.opDefineChar 15#4 (List.replicate 15 0xFF#8)).wf Config.session = true ∧
    encode (.opDefineChar 15#4 (List.replicate 15 0xFF#8)) =
      some (.request (defineCharRequest 15#4 (List.replicate 15 0xFF#8))) := by decide

/-- Both ends of each form next to a hole: 0x07, 0x0F, 0x28, 0x40, 0x7F, 0x80, 0xFF decode. -/
theorem test_witness_CommandByteHasOneMeaning :
    decodeCmd 0x04#8 = .ok (.cmdEntryMode false false) ∧ decodeCmd 0x0F#8 = .ok (.cmdDisplayControl true true true) ∧
    decodeCmd 0x28#8 = .ok .cmdFunctionSet ∧ decodeCmd 0x40#8 = .ok (.cmdSetCgram 0#6) ∧
    decodeCmd 0x7F#8 = .ok (.cmdSetCgram 63#6) ∧ decodeCmd 0x80#8 = .ok (.cmdSetDdram 0#7) := by decide

/-- A transport that carries everything, and one whose second call fails (TV-31). -/
theorem test_witness_Write4IssuesItsSevenEvents :
    bf0.host = [] ∧ bf0.tmr = 0 ∧ (carried bf0.link (write4Trace bf0.cfg false 3#4)).2 = none ∧
    (carried ({ bf0 with link := [none, some 7] } : State).link (write4Trace bf0.cfg false 3#4)).2 = some 7 := by decide

/-- TV-32: the recv of a read4 fails. -/
theorem test_witness_Read4IssuesItsEightEvents :
    bf0.cfg.variant = .bf ∧ bf0.host = [] ∧ bf0.tmr = 0 ∧ ({ bf0 with rx := [0x8A#8] } : State).rx = 0x8A#8 :: [] ∧
    (carried bf0.link (read4Trace bf0.cfg false 0x8A#8)).2 = none ∧
    (carried ({ bf0 with link := [none, none, some 7] } : State).link (read4Trace bf0.cfg false 0x8A#8)).2 = some 7 ∧
    fd0.cfg.variant = .fd := by decide

/-- TV-31: the sixth send of a write8 fails. -/
theorem test_witness_Write8IsTwoWrite4HighNibbleFirst :
    fd0.host = [] ∧ fd0.tmr = 0 ∧ (carried fd0.link (write8Trace fd0.cfg false 0x0C#8)).2 = none ∧
    (carried ({ fd0 with link := [none, none, none, none, none, some 7] } : State).link
      (write8Trace fd0.cfg false 0x0C#8)).2 = some 7 := by decide

theorem test_witness_Read8IsTwoRead4HighNibbleFirst :
    bf0.cfg.variant = .bf ∧ bf0.host = [] ∧ bf0.tmr = 0 ∧
    ({ bf0 with rx := [0x08#8, 0x03#8] } : State).rx = 0x08#8 :: 0x03#8 :: [] ∧
    (carried bf0.link (read8Trace bf0.cfg false (0x08#8, 0x03#8))).2 = none ∧
    (carried ({ bf0 with link := [none, none, none, none, some 7] } : State).link
      (read8Trace bf0.cfg false (0x08#8, 0x03#8))).2 = some 7 ∧
    fd0.cfg.variant = .fd := by decide

theorem test_witness_DelayHoldsTheSequencer : bf0.cfg.wf = true ∧ bf0.host = [] := by decide

theorem test_witness_DelayIsALowerBound :
    bf0.cfg.wf = true ∧ bf0.host = [] ∧ exec (.delay 1) bf0 = .next (bf0.startDelay 1) ∧
    run 1 (bf0.startDelay 1) = .next (bf0.startDelay 1).tick ∧ (bf0.startDelay 1).tick.tmr = 0 := by
  refine ⟨by decide, rfl, rfl, ?_, by decide⟩
  rw [run_succ (show step (bf0.startDelay 1) = .next (bf0.startDelay 1).tick from rfl), run_zero]

/-- Both variants. -/
theorem test_witness_PolicyWaitFollowsTheVariant :
    (Quiet { bf0 with rx := [0x08#8, 0x03#8, 0x07#8, 0x0F#8] } ∧ WaitsOk bf0.cfg [twoPolls] ∧
      ({ bf0 with rx := [0x08#8, 0x03#8, 0x07#8, 0x0F#8] } : State).rx = waitBytes bf0.cfg twoPolls ++ []) ∧
    Quiet fd0 ∧ WaitsOk fd0.cfg [twoPolls] ∧ fd0.rx = waitBytes fd0.cfg twoPolls ++ [] :=
  ⟨⟨(quiet_bf _).1, waits_two, by decide⟩, (quiet_fd _).1, waits_fd _, by decide⟩

theorem test_witness_BusyWaitPollsUntilFree :
    Quiet { bf0 with rx := [0x08#8, 0x03#8, 0x07#8, 0x0F#8] } ∧ bf0.cfg.variant = .bf ∧ twoPolls.Valid ∧
    ({ bf0 with rx := [0x08#8, 0x03#8, 0x07#8, 0x0F#8] } : State).rx = pairBytes twoPolls.all ++ [] ∧
    fd0.cfg.variant = .fd :=
  ⟨(quiet_bf _).1, rfl, test_polls_valid.1, by decide, rfl⟩

theorem test_witness_BusyWaitHasNoTimeout :
    Quiet { bf0 with rx := [0x08#8, 0x00#8], seq := [.run .busyWait, .finish] } ∧ bf0.cfg.variant = .bf ∧
    (∀ v ∈ [((0x08#8, 0x00#8) : Byte × Byte)], (assembled v).getLsbD 7 = true) ∧
    ({ bf0 with rx := [0x08#8, 0x00#8] } : State).rx = pairBytes [(0x08#8, 0x00#8)] ++ [] :=
  ⟨⟨rfl, rfl, rfl, rfl⟩, rfl, fun v hv => by rw [List.mem_singleton.1 hv]; decide, by decide⟩

theorem test_witness_StatusByteSetsBusyFlag : bf0.cfg.variant = .bf ∧ fd0.cfg.variant = .fd := by decide

/-- The hypotheses of DoCmdWritesThenWaits, DoDataWritesThenWaits, CommandBytesAreIssuedByDoCmd and
DataBytesAreIssuedByDoData, with an answer left over. -/
theorem test_witness_DoCmdWritesThenWaits :
    Quiet { bf0 with rx := [0x08#8, 0x03#8, 0x07#8, 0x0F#8, 0xAA#8] } ∧ WaitsOk bf0.cfg [twoPolls] ∧
    ({ bf0 with rx := [0x08#8, 0x03#8, 0x07#8, 0x0F#8, 0xAA#8] } : State).rx =
      waitBytes bf0.cfg twoPolls ++ [0xAA#8] :=
  ⟨(quiet_bf _).1, waits_two, by decide⟩
theorem test_witness_DoDataWritesThenWaits :
    Quiet fd0 ∧ WaitsOk fd0.cfg [twoPolls] ∧ fd0.rx = waitBytes fd0.cfg twoPolls ++ [] :=
  ⟨(quiet_fd _).1, waits_fd _, by decide⟩
theorem test_witness_CommandBytesAreIssuedByDoCmd :
    Quiet fd0 ∧ WaitsOk fd0.cfg [onePoll] ∧ fd0.rx = waitBytes fd0.cfg onePoll ++ [] ∧
    0x05#8 = 0x04#8 ||| (bit false <<< 1) ||| bit true ∧
    0x0C#8 = 0x08#8 ||| (bit true <<< 2) ||| (bit false <<< 1) ||| bit false ∧
    0x7F#8 = 0x40#8 ||| (63#6).setWidth 8 ∧ 0xFF#8 = 0x80#8 ||| (127#7).setWidth 8 :=
  ⟨(quiet_fd _).1, waits_fd _, by decide, by decide, by decide, by decide, by decide⟩
theorem test_witness_DataBytesAreIssuedByDoData :
    Quiet fd0 ∧ WaitsOk fd0.cfg [onePoll] ∧ fd0.rx = waitBytes fd0.cfg onePoll ++ [] :=
  ⟨(quiet_fd _).1, waits_fd _, by decide⟩

/-- TV-14. -/
theorem test_witness_ReadDataReadsThenWaits :
    Quiet { bf0 with rx := [0x04#8, 0x08#8, 0x00#8, 0x00#8] } ∧ bf0.cfg.variant = .bf ∧ onePoll.Valid ∧
    ({ bf0 with rx := [0x04#8, 0x08#8, 0x00#8, 0x00#8] } : State).rx =
      0x04#8 :: 0x08#8 :: (pairBytes onePoll.all ++ []) ∧
    fd0.cfg.variant = .fd :=
  ⟨(quiet_bf _).1, rfl, test_polls_valid.2, by decide, rfl⟩

theorem test_witness_SingleNibblesAreOneWrite4 : Quiet bf0 ∧ Quiet fd0 := ⟨(quiet_bf _).1, (quiet_fd _).1⟩

/-- TV-19: the controller is never busy; TV-18: FD. -/
theorem test_witness_InitRunsItsNineSteps :
    (QuietIdle { bf0 with rx := List.replicate 12 0x00#8 } ∧
      WaitsOk bf0.cfg [onePoll, onePoll, onePoll, onePoll, onePoll, onePoll] ∧
      ({ bf0 with rx := List.replicate 12 0x00#8 } : State).rx =
        [onePoll, onePoll, onePoll, onePoll, onePoll, onePoll].flatMap (waitBytes bf0.cfg) ++ []) ∧
    QuietIdle fd0 ∧ WaitsOk fd0.cfg [onePoll, onePoll, onePoll, onePoll, onePoll, onePoll] ∧
      fd0.rx = [onePoll, onePoll, onePoll, onePoll, onePoll, onePoll].flatMap (waitBytes fd0.cfg) ++ [] := by
  refine ⟨⟨quiet_bf _, ?_, by decide⟩, quiet_fd _, waits_fd _, by decide⟩
  intro _ w hw
  simp only [List.mem_cons, List.not_mem_nil, or_false, or_self] at hw
  rw [hw]; exact test_polls_valid.2

/-- The hypotheses of CLEAR, HOME, ENTRY_MODE and DISPLAY_CONTROL in both variants. -/
theorem test_witness_ClearAddsItsDelayInFd :
    (QuietIdle { bf0 with rx := [0x08#8, 0x03#8, 0x07#8, 0x0F#8] } ∧ WaitsOk bf0.cfg [twoPolls] ∧
      ({ bf0 with rx := [0x08#8, 0x03#8, 0x07#8, 0x0F#8] } : State).rx = waitBytes bf0.cfg twoPolls ++ []) ∧
    QuietIdle fd0 ∧ WaitsOk fd0.cfg [twoPolls] ∧ fd0.rx = waitBytes fd0.cfg twoPolls ++ [] :=
  ⟨⟨quiet_bf _, waits_two, by decide⟩, quiet_fd _, waits_fd _, by decide⟩
theorem test_witness_HomeIsThePlainCommand :
    QuietIdle fd0 ∧ WaitsOk fd0.cfg [onePoll] ∧ fd0.rx = waitBytes fd0.cfg onePoll ++ [] :=
  ⟨quiet_fd _, waits_fd _, by decide⟩
theorem test_witness_EntryModeSendsItsTwoBits :
    QuietIdle fd0 ∧ WaitsOk fd0.cfg [onePoll] ∧ fd0.rx = waitBytes fd0.cfg onePoll ++ [] :=
  ⟨quiet_fd _, waits_fd _, by decide⟩
theorem test_witness_DisplayControlSendsItsThreeBits :
    QuietIdle { bf0 with rx := [0x08#8, 0x03#8, 0x07#8, 0x0F#8] } ∧ WaitsOk bf0.cfg [twoPolls] ∧
    ({ bf0 with rx := [0x08#8, 0x03#8, 0x07#8, 0x0F#8] } : State).rx = waitBytes bf0.cfg twoPolls ++ [] :=
  ⟨quiet_bf _, waits_two, by decide⟩

/-- TV-13's byte, one wait for the command and one for the byte; and no byte at all (TV-27). -/
theorem test_witness_WriteSendsAddressThenBytes :
    (QuietIdle { bf0 with rx := [0x08#8, 0x03#8, 0x07#8, 0x0F#8, 0x00#8, 0x00#8] } ∧
      [onePoll].length = [(0x41#8 : Byte)].length ∧ WaitsOk bf0.cfg [twoPolls, onePoll] ∧
      ({ bf0 with rx := [0x08#8, 0x03#8, 0x07#8, 0x0F#8, 0x00#8, 0x00#8] } : State).rx =
        [twoPolls, onePoll].flatMap (waitBytes bf0.cfg) ++ []) ∧
    QuietIdle fd0 ∧ ([] : List Polls).length = ([] : List Byte).length ∧ WaitsOk fd0.cfg [onePoll] ∧
      fd0.rx = [onePoll].flatMap (waitBytes fd0.cfg) ++ [] := by
  refine ⟨⟨quiet_bf _, rfl, ?_, by decide⟩, quiet_fd _, rfl, waits_fd _, by decide⟩
  intro _ w hw
  simp only [List.mem_cons, List.not_mem_nil, or_false] at hw
  rcases hw with rfl | rfl
  · exact test_polls_valid.1
  · exact test_polls_valid.2

/-- One byte, 0x48 (TV-29's first). -/
theorem test_witness_ReadReturnsTheBytesInOrder :
    QuietIdle { bf0 with rx := [0x00#8, 0x00#8, 0x04#8, 0x08#8, 0x00#8, 0x00#8] } ∧ bf0.cfg.variant = .bf ∧
    [((0x04#8, 0x08#8) : Byte × Byte)].length = 1 ∧ [onePoll].length = 1 ∧ WaitsOk bf0.cfg [onePoll, onePoll] ∧
    ({ bf0 with rx := [0x00#8, 0x00#8, 0x04#8, 0x08#8, 0x00#8, 0x00#8] } : State).rx =
      pairBytes onePoll.all ++ ([((0x04#8, 0x08#8) : Byte × Byte)].zip [onePoll]).flatMap
        (fun x => x.1.1 :: x.1.2 :: pairBytes x.2.all) ++ [] := by
  refine ⟨quiet_bf _, rfl, rfl, rfl, ?_, by decide⟩
  intro _ w hw
  simp only [List.mem_cons, List.not_mem_nil, or_false, or_self] at hw
  rw [hw]; exact test_polls_valid.2

/-- The highest code (TV-30's nearest accepted input). -/
theorem test_witness_DefineCharSendsEightRows :
    QuietIdle fd0 ∧ (7#4).toNat ≤ 7 ∧ (List.replicate 8 0xFF#8).length = 8 ∧ (List.replicate 8 onePoll).length = 8 ∧
    WaitsOk fd0.cfg (onePoll :: List.replicate 8 onePoll) ∧
    fd0.rx = (onePoll :: List.replicate 8 onePoll).flatMap (waitBytes fd0.cfg) ++ [] :=
  ⟨quiet_fd _, by decide, by decide, by decide, waits_fd _, by decide⟩

/-- Either condition alone, at its boundary, and both. -/
theorem test_witness_InvalidArgumentBeforeAnyEvent :
    bf0.seq = [] ∧ (7 < (8#4).toNat ∨ (List.replicate 8 0#8).length ≠ 8) ∧
    (7 < (7#4).toNat ∨ (List.replicate 7 0#8).length ≠ 8) ∧ (7 < (0#4).toNat ∨ (List.replicate 9 0#8).length ≠ 8) ∧
    (7 < (15#4).toNat ∨ ([] : List Byte).length ≠ 8) := by decide

theorem test_witness_ReadIsUnsupportedInFd : fd0.seq = [] ∧ fd0.cfg.variant = .fd := by decide

/-- A failing send and a failing recv. -/
def failingSend : State :=
  { fd0 with seq := [.send ⟨false, none, true, some 0#4⟩, .finish], link := [some 7] }
def failingRecv : State := { bf0 with seq := [.recv, .finish], link := [some 7] }

theorem test_witness_TransportFailureStrikesAtItsEvent :
    (failingSend.hostNow.reset = none ∧ failingSend.tmr = 0 ∧
      failingSend.seq = .send ⟨false, none, true, some 0#4⟩ :: [.finish] ∧ failingSend.link.head? = some (some 7)) ∧
    failingRecv.hostNow.reset = none ∧ failingRecv.tmr = 0 ∧ failingRecv.seq = .recv :: [.finish] ∧
      failingRecv.link.head? = some (some 7) ∧ failingRecv.cfg.variant = .bf := by decide

/-- A cancel that is pending, and one raised in this very step. -/
def pendingCancel : State := { fd0 with seq := [.unit (.write8 false 1#8), .finish], cancelPend := true }
def raisedCancel : State := { fd0 with seq := [.unit (.write8 false 1#8), .finish], host := [{ cancel := true }] }

theorem test_witness_CancelIsTakenBeforeAUnit :
    (pendingCancel.hostNow.reset = none ∧ pendingCancel.tmr = 0 ∧
      pendingCancel.seq = .unit (.write8 false 1#8) :: [.finish] ∧ pendingCancel.cancelPend = true) ∧
    raisedCancel.hostNow.reset = none ∧ raisedCancel.tmr = 0 ∧
      raisedCancel.seq = .unit (.write8 false 1#8) :: [.finish] ∧ raisedCancel.hostNow.cancel = true := by decide

theorem test_witness_CancelNeverSplitsAUnit :
    step pendingCancel = .next pendingCancel.takeCancel ∧ pendingCancel.hostNow.reset = none ∧
    pendingCancel.takeCancel.responses = pendingCancel.responses ++ [⟨.cancelled, [], none⟩] := by
  exact ⟨rfl, by decide, by decide⟩

/-- Raised while the timer runs; pending inside a critical section, raised in an earlier step; raised while idle. -/
def cancelInDelay : State := { fd0 with seq := [.finish], tmr := 2, host := [{ cancel := true }] }
def cancelPending : State := { fd0 with seq := [.writeLow false, .finish], cancelPend := true }
theorem test_witness_CancelIsLatchedOnlyWhenBusy :
    (cancelInDelay.hostNow.reset = none ∧ cancelInDelay.hostNow.cancel = true ∧ cancelInDelay.seq ≠ [] ∧
      (after (step cancelInDelay)).map (fun t => t.seq) = some [.finish]) ∧
    (cancelPending.hostNow.reset = none ∧ cancelPending.cancelPend = true ∧ cancelPending.hostNow.cancel = false ∧
      cancelPending.seq ≠ [] ∧
      (after (step cancelPending)).map (fun t => t.seq) = some [.run (.write4 false 0#4), .finish]) ∧
    ({ fd0 with host := [{ cancel := true }] } : State).hostNow.reset = none ∧
      ({ fd0 with host := [{ cancel := true }] } : State).hostNow.present = none ∧
      ({ fd0 with host := [{ cancel := true }] } : State).seq = [] ∧ fd0.tmr = 0 ∧ fd0.req = none := by decide

/-- A request that fails its check (READ in FD) and one that does not, each with a cancel raised. -/
def readAndCancel : State := { fd0 with req := some (readRequest 0#1 0#6 4), host := [{ cancel := true }] }
def clearAndCancel : State := { fd0 with req := some clearRequest, host := [{ cancel := true }] }
theorem test_witness_ArgumentFaultsBeatACancel :
    (readAndCancel.hostNow.reset = none ∧ readAndCancel.hostNow.present = none ∧ readAndCancel.seq = [] ∧
      readAndCancel.tmr = 0 ∧ readAndCancel.cancelPend = false ∧
      readAndCancel.req = some (readRequest 0#1 0#6 4) ∧
      decode (.request (readRequest 0#1 0#6 4)) = .ok (.opRead 0#1 0#6 4) ∧
      (Instr.opRead 0#1 0#6 4).wf readAndCancel.cfg = true ∧
      argumentFault readAndCancel.cfg (.opRead 0#1 0#6 4) = some .unsupported) ∧
    clearAndCancel.hostNow.reset = none ∧ clearAndCancel.hostNow.present = none ∧ clearAndCancel.seq = [] ∧
      clearAndCancel.tmr = 0 ∧ clearAndCancel.cancelPend = false ∧ clearAndCancel.req = some clearRequest ∧
      decode (.request clearRequest) = .ok .opClear ∧ Instr.opClear.wf clearAndCancel.cfg = true ∧
      argumentFault clearAndCancel.cfg .opClear = none := by decide

/-- A state in the middle of CLEAR, BF: the command byte is about to be written. -/
def midClear : State := { bf0 with seq := [.unit (.write8 false 1#8), .run .policyWait, .finish], op := 1#4 }
/-- The end of CLEAR. -/
def endClear : State := { bf0 with seq := [.finish], op := 1#4 }
/-- The same in FD, between its units. -/
def midClearFd : State := { fd0 with seq := [.run .policyWait, .unit (.delay 1520000), .finish], op := 1#4 }

/-- The invariant's clauses for a quiet state with an empty trace, one by one. -/
theorem inv_of_empty_trace {s : State} (hc : s.cfg.wf = true) (hh : s.host = []) (hb : s.bus = resetBus s.cfg)
    (hs : SeqShape s.seq) (hl : ∀ m ∈ s.seq, m.legal s.cfg = true) (hr : s.op ≠ 0x6#4) (ht : s.tmr = 0)
    (hp : s.cancelPend = false) (he : s.trace = []) (hm : ∀ m ∈ s.seq, m.sent = none ∧ m.midNibble = false) :
    Inv s where
  cfg := hc
  resets := by rw [hh]; intro h hx; cases hx
  rw := by rw [hb]; unfold resetBus isBf; cases s.cfg.variant <;> rfl
  shape := hs
  legal := hl
  noRead := fun _ h => absurd h hr
  timer := by rw [ht]; exact Nat.two_pow_pos _
  idle := fun _ => ⟨ht, hp⟩
  events := by rw [he]; intro e hx; cases hx
  bus := fun _ => by rw [he, hb]; rfl
  settles := by
    intro _
    have hrel : Released s.bus := by rw [hb]; exact ⟨rfl, rfl⟩
    clear hs hl
    revert hm hrel
    generalize s.seq = ms
    generalize s.bus = b
    intro hm hrel
    induction ms generalizing b with
    | nil => exact hrel
    | cons m ms ih =>
      have h := hm m (by simp)
      simp only [Settles, h.1, h.2]
      exact ⟨hrel, fun b' hb' => ih b' (fun x hx => hm x (by simp [hx])) hb'⟩
  edges := fun _ => by rw [he]; exact List.isChain_singleton _

theorem midClear_inv : Inv midClear :=
  inv_of_empty_trace (by decide) rfl rfl
    (.inr ⟨[], [.unit (.write8 false 1#8), .run .policyWait], rfl, by decide, by decide⟩) (by decide) (by decide) rfl rfl rfl
    (by decide)
theorem endClear_inv : Inv endClear :=
  inv_of_empty_trace (by decide) rfl rfl (.inr ⟨[], [], rfl, by decide, by decide⟩) (by decide) (by decide) rfl rfl rfl
    (by decide)
theorem midClearFd_inv : Inv midClearFd :=
  inv_of_empty_trace (by decide) rfl rfl
    (.inr ⟨[], [.run .policyWait, .unit (.delay 1520000)], rfl, by decide, by decide⟩) (by decide) (by decide) rfl rfl rfl
    (by decide)

/-- The two outcomes: an operation ends, and one goes on. -/
theorem test_witness_OneResponsePerOperation :
    (Inv endClear ∧ step endClear = .next { endClear with seq := [], responses := [⟨.ok, [], none⟩] } ∧
      endClear.hostNow.reset = none) ∧
    Inv midClear ∧
      step midClear = .next { midClear with
        seq := [.run (.write4 false 0#4), .writeLow false, .run .policyWait, .finish], byte := 1#8 } ∧
      midClear.hostNow.reset = none :=
  ⟨⟨endClear_inv, rfl, by decide⟩, midClear_inv, rfl, by decide⟩

theorem test_witness_OperandLatchesAreConstant :
    Inv midClear ∧ midClear.seq ≠ [] ∧ midClear.hostNow.reset = none ∧
      step midClear = .next { midClear with
        seq := [.run (.write4 false 0#4), .writeLow false, .run .policyWait, .finish], byte := 1#8 } :=
  ⟨midClear_inv, by decide, by decide, rfl⟩

/-- The end of a `READ` of one byte. -/
theorem test_witness_OnlyReadReturnsData :
    step { bf0 with op := 0x6#4, rbuf := [0x48#8], seq := [.finish] } =
      .next { bf0 with op := 0x6#4, rbuf := [0x48#8], seq := [], responses := [⟨.ok, [0x48#8], none⟩] } ∧
    ({ bf0 with op := 0x6#4, rbuf := [0x48#8], seq := [.finish] } : State).hostNow.reset = none ∧
    (⟨.ok, [0x48#8], none⟩ : Response).data ≠ [] := ⟨rfl, rfl, by decide⟩

theorem test_witness_WaitingRequestHasNoEffect :
    midClear.seq ≠ [] ∧ midClear.hostNow.reset = none ∧ midClear.hostNow.present = none := by decide
theorem test_witness_BusyEngineAcceptsNothing : midClear.seq ≠ [] := by decide
theorem test_witness_ResetLeavesTheSpecifiedState : Config.session.variant = .bf ∧ fdCfg.variant = .fd := by decide

/-- Reset in the middle of an operation, to each variant. -/
theorem test_witness_ResetAbandonsTheOperation :
    ({ midClear with host := [{ reset := some fdCfg }] } : State).hostNow.reset = some fdCfg ∧
    ({ midClearFd with host := [{ reset := some Config.session }] } : State).hostNow.reset = some Config.session ∧
    Config.session.variant = .bf := by decide

/-- A request that waits, one presented in this step, and one of each at once. -/
theorem test_witness_StepRunsTheRequest :
    (clearAndCancel.hostNow.reset = none ∧ clearAndCancel.seq = [] ∧ clearAndCancel.tmr = 0 ∧
      clearAndCancel.hostNow.present.or clearAndCancel.req = some clearRequest ∧
      decode (.request clearRequest) = .ok .opClear ∧ Instr.opClear.wf clearAndCancel.cfg = true) ∧
    ({ bf0 with host := [{ present := some homeRequest }] } : State).hostNow.present.or bf0.req = some homeRequest ∧
      decode (.request homeRequest) = .ok .opHome ∧ Instr.opHome.wf bf0.cfg = true ∧
    ({ bf0 with req := some clearRequest, host := [{ present := some homeRequest }] } : State).hostNow.present.or
      (some clearRequest) = some homeRequest := by decide

/-- Each clause at the edge of `LEN_MAX` = 2 and of the length ports: a stream one byte short, a length one above, and
both at their limit. -/
def lenTwo : State := State.resetWith { fdCfg with lenMax := 2 }
def shortWrite : Request := { writeRequest 0#1 0#6 [1#8] with len := 2 }
def shortBitmap : Request := { defineCharRequest 0#4 [1#8] with blen := 2#4 }
theorem test_witness_AcceptanceRefusesWhatThePortsExclude :
    (lenTwo.hostNow.reset = none ∧ lenTwo.seq = [] ∧ lenTwo.tmr = 0) ∧
    ({ lenTwo with req := some shortWrite } : State).hostNow.present.or (some shortWrite) = some shortWrite ∧
    StreamMisfits shortWrite ∧ StreamMisfits shortBitmap ∧
    (¬StreamMisfits (writeRequest 0#1 0#6 [1#8, 2#8, 3#8]) ∧
      LengthTooLong lenTwo.cfg (writeRequest 0#1 0#6 [1#8, 2#8, 3#8])) ∧
    (¬StreamMisfits (readRequest 0#1 0#6 3) ∧ LengthTooLong lenTwo.cfg (readRequest 0#1 0#6 3)) ∧
    (¬StreamMisfits (writeRequest 0#1 0#6 [1#8, 2#8]) ∧
      ¬LengthTooLong lenTwo.cfg (writeRequest 0#1 0#6 [1#8, 2#8])) ∧
    ¬StreamMisfits (readRequest 0#1 0#6 2) ∧ ¬LengthTooLong lenTwo.cfg (readRequest 0#1 0#6 2) := by
  unfold StreamMisfits LengthTooLong; decide

/-- U3: what such requests end in. -/
theorem test_accept_misfits :
    refusal (step { lenTwo with req := some shortWrite }) = some (.malformedRequest .streamLength) ∧
    refusal (step { lenTwo with req := some shortBitmap }) = some (.malformedRequest .streamLength) ∧
    refusal (step { lenTwo with req := some (readRequest 0#1 0#6 3) }) = some .operandOutOfRange := by decide

theorem test_witness_StepRunsThePosition :
    (midClearFd.hostNow.reset = none ∧ midClearFd.tmr = 0 ∧
      midClearFd.seq = .run .policyWait :: [.unit (.delay 1520000), .finish]) ∧
    midClear.hostNow.reset = none ∧ midClear.tmr = 0 ∧
      midClear.seq = .unit (.write8 false 1#8) :: [.run .policyWait, .finish] ∧ midClear.cancelPend = false ∧
      midClear.hostNow.cancel = false := by decide

/-- A cancel raised; a request presented while another waits. -/
theorem test_witness_RunningTimerHoldsEverything :
    (cancelInDelay.hostNow.reset = none ∧ cancelInDelay.tmr ≠ 0) ∧
    ({ cancelInDelay with req := some clearRequest, host := [{ present := some homeRequest }] } : State).hostNow.reset =
      none := by decide

/-- The hypotheses of ConfigurationIsConstant and TraceGrowsByOneEvent: a step that issues an event. -/
theorem test_witness_ConfigurationIsConstant :
    step { fd0 with seq := [.unit (.delay 5), .finish] } =
      .next { fd0 with seq := [.finish], tmr := 5, trace := [.delay 5] } ∧
    ({ fd0 with seq := [.unit (.delay 5), .finish] } : State).hostNow.reset = none := ⟨rfl, rfl⟩
theorem test_witness_TraceGrowsByOneEvent :
    step { fd0 with seq := [.unit (.delay 5), .finish] } =
      .next { fd0 with seq := [.finish], tmr := 5, trace := [.delay 5] } ∧
    ({ fd0 with seq := [.unit (.delay 5), .finish] } : State).hostNow.reset = none := ⟨rfl, rfl⟩

theorem test_witness_TransactionFrame :
    (∀ r, encode (.status true 0#7) ≠ some (.request r)) ∧
    exec (.status true 0#7) bf0 = .next { bf0 with bf := true, seq := [.run .busyWait] } :=
  ⟨fun _ h => by simp [encode] at h, rfl⟩

/-- A request that begins, one that is turned away, and one for each length port. -/
theorem test_witness_HostOperationFrame :
    (encode .opHome = some (.request homeRequest) ∧
      (after (exec .opHome bf0)).isSome = true ∧ argumentFault bf0.cfg .opHome = none ∧ bf0.seq = []) ∧
    encode (.opReserved 0#3) = some (.request (reservedRequest 0#3)) ∧
      (after (exec (.opReserved 0#3) bf0)).isSome = true ∧
    (encode (.opWrite 1#1 5#6 [7#8, 8#8]) = some (.request (writeRequest 1#1 5#6 [7#8, 8#8])) ∧
      (after (exec (.opWrite 1#1 5#6 [7#8, 8#8]) bf0)).map (fun t => (t.aLen, t.aBytes)) = some (2, [7#8, 8#8])) ∧
    encode (.opDefineChar 3#4 [9#8]) = some (.request (defineCharRequest 3#4 [9#8])) ∧
      (after (exec (.opDefineChar 3#4 [9#8]) bf0)).map (fun t => (t.aLen, t.aBytes)) = some (1, [9#8]) := by decide

theorem test_witness_InvariantHoldsAtReset :
    fdCfg.wf = true ∧ ∀ h ∈ [({ reset := some Config.session } : HostInput)], ∀ c, h.reset = some c → c.wf = true := by
  refine ⟨by decide, ?_⟩
  intro h hx c hc
  rw [List.mem_singleton.1 hx] at hc
  cases hc
  decide

/-- An operation in progress, whatever waits; an idle engine with no request; one with a request waiting. -/
def idleAfterByte : State := { bf0 with byte := 1#8 }
def idleWaiting : State := { bf0 with req := some homeRequest }
theorem test_witness_StepAnswersANextState :
    (Inv midClear ∧ midClear.hostNow.reset = none ∧ midClear.seq ≠ []) ∧
    (Inv idleAfterByte ∧ idleAfterByte.hostNow.reset = none ∧
      idleAfterByte.hostNow.present.or idleAfterByte.req = none) ∧
    Inv idleWaiting ∧ idleWaiting.hostNow.reset = none ∧
      idleWaiting.hostNow.present.or idleWaiting.req = some homeRequest ∧
      decode (.request homeRequest) = .ok .opHome ∧ Instr.opHome.wf idleWaiting.cfg = true :=
  ⟨⟨midClear_inv, by decide, by decide⟩,
    ⟨inv_of_empty_trace (by decide) rfl rfl (.inl rfl) (by decide) (by decide) rfl rfl rfl (by decide), by decide,
      by decide⟩,
    inv_of_empty_trace (by decide) rfl rfl (.inl rfl) (by decide) (by decide) rfl rfl rfl (by decide), by decide,
    by decide, by decide, by decide⟩

theorem test_witness_EveryStepKeepsTheInvariant :
    Inv midClear ∧ step midClear = .next { midClear with
      seq := [.run (.write4 false 0#4), .writeLow false, .run .policyWait, .finish], byte := 1#8 } :=
  ⟨midClear_inv, rfl⟩

/-- A run of one step that ends idle. -/
theorem run_one {s t : State} (h : step s = .next t) : run 1 s = .next t := by rw [run_succ h, run_zero]

theorem test_witness_IdleBusIsReleased :
    Inv endClear ∧ run 1 endClear = .next { endClear with seq := [], responses := [⟨.ok, [], none⟩] } ∧
    ({ endClear with seq := [], responses := [⟨.ok, [], none⟩] } : State).seq = [] ∧ NoFailure endClear.trace :=
  ⟨endClear_inv, run_one rfl, rfl, (by intro e h; cases h)⟩
theorem test_witness_EnablePulsesAreFramed :
    Inv endClear ∧ run 1 endClear = .next { endClear with seq := [], responses := [⟨.ok, [], none⟩] } ∧
    NoFailure endClear.trace :=
  ⟨endClear_inv, run_one rfl, (by intro e h; cases h)⟩
theorem test_witness_FdTraceHasNoReads :
    Inv midClearFd ∧
    run 1 midClearFd = .next { midClearFd with seq := [.unit (.delay 37000), .unit (.delay 1520000), .finish] } ∧
    midClearFd.cfg.variant = .fd :=
  ⟨midClearFd_inv, run_one rfl, rfl⟩
/-- A run that has reached a byte written to IR. -/
theorem test_witness_OnlyListedCommandsAreEmitted :
    Inv midClear ∧ run 0 midClear = .next midClear ∧
    midClear.seq = .unit (.write8 false 1#8) :: [.run .policyWait, .finish] :=
  ⟨midClear_inv, rfl, rfl⟩
theorem test_witness_TimerNeverWraps :
    Inv midClearFd ∧
    run 1 midClearFd = .next { midClearFd with seq := [.unit (.delay 37000), .unit (.delay 1520000), .finish] } :=
  ⟨midClearFd_inv, run_one rfl⟩
theorem test_witness_NibblePhaseIsKept :
    Inv midClear ∧ step midClear = .next { midClear with
      seq := [.run (.write4 false 0#4), .writeLow false, .run .policyWait, .finish], byte := 1#8 } ∧
    midClear.hostNow.reset = none ∧ NoFailure midClear.trace ∧ NoSingleNibble midClear.seq ∧
    NoSingleNibble [.run (.write4 false 0#4), .writeLow false, .run .policyWait, .finish] := by
  refine ⟨midClear_inv, rfl, by decide, (fun e h => by cases h), ?_, ?_⟩
  · intro m hm; simp only [midClear, List.mem_cons, List.not_mem_nil, or_false] at hm; rcases hm with rfl | rfl | rfl <;> simp
  · intro m hm; simp only [List.mem_cons, List.not_mem_nil, or_false] at hm; rcases hm with rfl | rfl | rfl | rfl <;> simp

/-- Two idle engines that differ in every latch. -/
def otherIdle : State :=
  { bf0 with op := 6#4, aLine := 1#1, aCol := 9#6, aFlags := 7#3, aCode := 5#4, aLen := 3, byte := 0xFF#8, phase := .lo,
             idx := 3, bf := true, status := .cancelled, rbuf := [1#8], rdata := 2#8, aBytes := [3#8],
             req := some homeRequest }
theorem test_witness_IdleEngineHasNoMemory :
    ({ bf0 with req := some homeRequest } : State).seq = [] ∧ otherIdle.seq = [] ∧ bf0.tmr = 0 ∧ otherIdle.tmr = 0 ∧
    bf0.cancelPend = false ∧ otherIdle.cancelPend = false ∧ otherIdle.cfg = bf0.cfg ∧
    otherIdle.req = some homeRequest ∧ otherIdle.host = bf0.host ∧ otherIdle.link = bf0.link ∧ otherIdle.rx = bf0.rx ∧
    otherIdle.draws = bf0.draws ∧ (∀ h ∈ bf0.host, h.reset = none) ∧
    run 1 { bf0 with req := some homeRequest } =
      .next { bf0 with op := 2#4, seq := [.run .cmdHome, .finish] } := by
  refine ⟨rfl, rfl, rfl, rfl, rfl, rfl, rfl, rfl, rfl, rfl, rfl, rfl, by decide, run_one rfl⟩

end Sys2Proof.Tests
end

section
/-! PROOFS of the family 10_state: exec as one function of the fields an instruction touches, the frames that follow
from it, reset, and the position reached. -/

namespace Sys2Proof.Machine

open Sys2Proof

-- An instruction that is no host request, as a function of the fields it touches

/-- The positions a transaction puts in front of `SEQ` (R100 to R103, R120 to R122, R130 to R132). -/
def expansion (cfg : Config) : Instr → List Micro
  | .cmdClear => [.run (.doCmd clearByte)]
  | .cmdHome => [.run (.doCmd homeByte)]
  | .cmdEntryMode l r => [.run (.doCmd (entryModeByte l r))]
  | .cmdDisplayControl d c b => [.run (.doCmd (displayControlByte d c b))]
  | .cmdFunctionSet => [.run (.doCmd Config.functionSetByte)]
  | .cmdSetCgram a => [.run (.doCmd (setCgramByte a))]
  | .cmdSetDdram a => [.run (.doCmd (setDdramByte a))]
  | .data b => [.run (.doData b)]
  | .initNibble3 => [.unit (.write4 IR 0x3#4)]
  | .initNibble2 => [.unit (.write4 IR 0x2#4)]
  | .status busy _ => if busy then [.run .busyWait] else []
  | .write4 rs n => write4Steps cfg rs n
  | .read4 rs => read4Steps cfg rs
  | .write8 rs b => [.run (.write4 rs (hiNibble b)), .writeLow rs]
  | .read8 rs => [.run (.read4 rs), .readLow rs]
  | .doCmd b => transactionSteps IR b
  | .doData b => transactionSteps DR b
  | .readData => [.unit (.read8 DR), .keepRead, .run .busyWait]
  | .policyWait => if cfg.variant = .bf then [.run .busyWait] else [.unit (.delay cfg.tEXEC)]
  | .busyWait => [.unit (.read8 IR), .statusTest]
  | _ => []

/-- `BYTE` is written by `write8` only (R102). -/
def byteAfter : Instr → Byte → Byte
  | .write8 _ b, _ => b
  | _, old => old

/-- `PHASE` is written by `write8` and `read8` only (R102, R103). -/
def phaseAfter : Instr → Phase → Phase
  | .write8 _ _, _ | .read8 _, _ => .hi
  | _, old => old

/-- `BF` is written by the status byte only (R132). -/
def bfAfter : Instr → Bool → Bool
  | .status busy _, _ => busy
  | _, old => old

/-- The one transaction that issues an event by itself is `delay` (R138). -/
def traceAfter : Instr → List Event → List Event
  | .delay n, es => es ++ [.delay n]
  | _, es => es

/-- `TMR` is loaded by `delay` only (R138). -/
def tmrAfter (cfg : Config) : Instr → Nat → Nat
  | .delay n, _ => ticksFor cfg n
  | _, old => old

/-- The state a transaction answers: six fields may change, each as a function of the configuration and itself. -/
def transaction (i : Instr) (s : State) : State :=
  { s with
    seq := expansion s.cfg i ++ s.seq
    byte := byteAfter i s.byte
    phase := phaseAfter i s.phase
    bf := bfAfter i s.bf
    trace := traceAfter i s.trace
    tmr := tmrAfter s.cfg i s.tmr }

/-- What exists in BF only is decided by the configuration (R101, R131). -/
theorem bfOnly_uniform (what : String) (f : State → State) (cfg : Config) :
    (∀ s : State, s.cfg = cfg → bfOnly what s f = .next (f s)) ∨
    ∃ why, ∀ s : State, s.cfg = cfg → bfOnly what s f = .refused why := by
  cases hv : cfg.variant with
  | bf => exact .inl fun s hs => bfOnly_bf (hs ▸ hv)
  | fd => exact .inr ⟨_, fun s hs => bfOnly_fd (hs ▸ hv)⟩

/-- A transaction answers `transaction i s` under every state of a configuration, or is refused under every one. -/
theorem exec_transaction_cases {i : Instr} (hi : ∀ r, encode i ≠ some (.request r)) (cfg : Config) :
    (∀ s : State, s.cfg = cfg → exec i s = .next (transaction i s)) ∨
    ∃ why, ∀ s : State, s.cfg = cfg → exec i s = .refused why := by
  cases i
  case opInit | opClear | opHome | opEntryMode | opDisplayControl | opWrite | opRead | opDefineChar | opReserved =>
    exact absurd rfl (hi _)
  case read4 | read8 | readData | busyWait => exact bfOnly_uniform _ _ cfg
  case status busy g => cases busy <;> exact bfOnly_uniform _ _ cfg
  case policyWait =>
    refine .inl fun s _ => ?_
    cases hv : s.cfg.variant with
    | bf => rw [exec_policyWait_bf hv]; simp only [transaction, expansion, hv, if_true]; rfl
    | fd => rw [exec_policyWait_fd hv]; simp only [transaction, expansion, hv, reduceCtorEq, if_false]; rfl
  all_goals exact .inl fun _ _ => rfl

/-- What a transaction answers, when it answers a next state. -/
theorem exec_transaction_next {i : Instr} {s t : State} (hi : ∀ r, encode i ≠ some (.request r))
    (h : exec i s = .next t) : t = transaction i s := by
  rcases exec_transaction_cases hi s.cfg with he | ⟨why, he⟩
  · rw [he s rfl] at h; cases h; rfl
  · rw [he s rfl] at h; cases h

-- A host request, by its argument fault and its step list

/-- The step list of an accepted host operation (R150, R160 to R166). -/
def operationSteps (cfg : Config) : Instr → List Micro
  | .opInit => initSteps cfg
  | .opClear => clearSteps cfg
  | .opHome => [.run .cmdHome]
  | .opEntryMode l r =>
    [.run (.cmdEntryMode ((entryModeFlags l r).getLsbD 1) ((entryModeFlags l r).getLsbD 0))]
  | .opDisplayControl d c b =>
    [.run (.cmdDisplayControl ((displayControlFlags d c b).getLsbD 2) ((displayControlFlags d c b).getLsbD 1)
      ((displayControlFlags d c b).getLsbD 0))]
  | .opWrite line column _ | .opRead line column _ =>
    [.run (.cmdSetDdram (ddramAddress line column)), .startData, .dataLoop]
  | .opDefineChar code _ => [.run (.cmdSetCgram (cgramAddress code)), .startData, .dataLoop]
  | _ => []

/-- Every host operation has the one shape of R10, R33, R191: its argument fault and its step list depend on the
configuration alone. -/
theorem exec_request_eq {i : Instr} {r : Request} (h : encode i = some (.request r)) (s : State) :
    exec i s =
      .next (s.startOperation r (fun t => argumentFault t.cfg i) fun t => operationSteps t.cfg i) := by
  cases i
  case opRead line column n =>
    cases h
    have hc : readCheck = fun t => argumentFault t.cfg (.opRead line column n) :=
      funext fun t => readCheck_eq t line column n
    rw [← hc]
    rfl
  case opInit | opClear | opHome | opEntryMode | opDisplayControl | opWrite | opDefineChar | opReserved =>
    cases h; rfl
  all_goals cases h

/-- R33: a busy engine is left unchanged by a host operation (log 16). -/
theorem exec_request_busy {i : Instr} {r : Request} (h : encode i = some (.request r)) {s : State}
    (hs : s.seq ≠ []) : exec i s = .next s := by
  rw [exec_request_eq h, startOperation_busy hs]

/-- A host operation leaves the engine unchanged, is turned away, or begins. -/
theorem exec_request_next_cases {i : Instr} {r : Request} {s t : State} (h : encode i = some (.request r))
    (ht : exec i s = .next t) :
    (s.seq ≠ [] ∧ t = s) ∨
    (s.seq = [] ∧ ∃ e, argumentFault s.cfg i = some e ∧ t = (s.latch r).raise e none) ∨
    (s.seq = [] ∧ argumentFault s.cfg i = none ∧ t = (s.latch r).begin (operationSteps s.cfg i)) := by
  rw [exec_request_eq h] at ht
  cases ht
  exact State.startOperation_cases r (fun t => argumentFault t.cfg i) (fun t => operationSteps t.cfg i) s

-- The frames of exec

/-- Settles O49: the six fields of `transaction`, each read off the function that writes it. -/
theorem transactionFrame : Obligations.TransactionFrame := by
  intro i s t hi ht
  obtain rfl := exec_transaction_next hi ht
  refine ⟨rfl, fun h => ?byte, fun h h' => ?phase, fun h => ?bf, fun h => ?delay, _, rfl⟩
  case byte =>
    cases i
    case write8 rs b => exact absurd rfl (h rs b)
    all_goals rfl
  case phase =>
    cases i
    case write8 rs b => exact absurd rfl (h rs b)
    case read8 rs => exact absurd rfl (h' rs)
    all_goals rfl
  case bf =>
    cases i
    case status busy g => exact absurd rfl (h busy g)
    all_goals rfl
  case delay =>
    cases i
    case delay n => exact absurd rfl (h n)
    all_goals exact ⟨rfl, rfl⟩

/-- Settles O50: unchanged, turned away or begun, by `exec_request_next_cases`. -/
theorem hostOperationFrame : Obligations.HostOperationFrame := by
  intro i r s t hr ht
  rcases exec_request_next_cases hr ht with ⟨hs, rfl⟩ | ⟨hs, e, he, rfl⟩ | ⟨hs, he, rfl⟩
  · simp [hs]
  · simp [he]
  · simp

/-- Settles O39: each of the nine encodes to a request, and a busy engine accepts none. -/
theorem busyEngineAcceptsNothing : Obligations.BusyEngineAcceptsNothing := fun _ hs =>
  ⟨exec_request_busy rfl hs, exec_request_busy rfl hs, exec_request_busy rfl hs,
    fun _ _ => exec_request_busy rfl hs, fun _ _ _ => exec_request_busy rfl hs,
    fun _ _ _ => exec_request_busy rfl hs, fun _ _ _ => exec_request_busy rfl hs,
    fun _ _ => exec_request_busy rfl hs, fun _ => exec_request_busy rfl hs⟩

-- Reset

/-- A run stays where a step stays. -/
theorem run_of_step_self {s : State} (h : step s = .next s) (n : Nat) : run n s = .next s := by
  induction n with
  | zero => exact run_zero s
  | succ n ih => rw [run_succ h, ih]

/-- Settles O40: with no request and a silent host the reset state steps to itself. -/
theorem resetLeavesTheSpecifiedState : Obligations.ResetLeavesTheSpecifiedState := by
  intro cfg
  have hrw : (State.resetWith cfg).bus.rw = rwField cfg.variant false := rfl
  have hstep : step (State.resetWith cfg) = .next (State.resetWith cfg) := step_quiet rfl
  exact ⟨rfl, rfl, rfl, rfl, fun h => by rw [hrw, h]; rfl, fun h => by rw [hrw, h]; rfl,
    rfl, rfl, rfl, rfl, rfl, run_of_step_self hstep⟩

/-- Settles O51: an empty trace, an empty `SEQ` and a released bus meet every clause. -/
theorem invariantHoldsAtReset : Obligations.InvariantHoldsAtReset := by
  have hreset : ∀ (cfg : Config) (host : List HostInput) (link : List (Option Report)) (rx : List Byte)
      (req : Option Request), cfg.wf = true → (∀ h ∈ host, ∀ c, h.reset = some c → c.wf = true) →
      Inv { State.resetWith cfg with host := host, link := link, rx := rx, req := req } :=
    fun cfg host link rx req hcfg hhost =>
    { cfg := hcfg
      resets := hhost
      rw := rwField_isSome cfg.variant false
      shape := .inl rfl
      legal := fun _ hm => absurd hm List.not_mem_nil
      noRead := fun _ _ => rfl
      timer := Nat.two_pow_pos _
      idle := fun _ => ⟨rfl, rfl⟩
      events := fun _ he => absurd he List.not_mem_nil
      bus := fun _ => rfl
      settles := fun _ => ⟨rfl, rfl⟩
      edges := fun _ => List.isChain_singleton _ }
  exact ⟨hreset, hreset Config.session [] [] [] none (by decide) (fun _ h => absurd h List.not_mem_nil)⟩

-- The position reached

/-- Settles O44: neither a position that runs nor a unit with no cancel before it is a cancellation. -/
theorem stepRunsThePosition : Obligations.StepRunsThePosition := by
  intro s i k hr ht
  have ht' : s.afterHost.tmr = 0 := by rw [afterHost_tmr, ht]
  rw [step_no_reset hr]
  refine ⟨fun hs => ?_, fun hs hp hc => ?_⟩
  · exact engine_runs ht' (by rw [afterHost_seq, hs]) (.inr rfl)
  · exact engine_runs ht' (by rw [afterHost_seq, hs]) (.inl (by simp [hp, hc]))

end Sys2Proof.Machine
end

section
/-! PROOFS of the family 10_state: what a step keeps (R23, R24), and the fields it does not read (R21, R30, R33). -/

namespace Sys2Proof.Machine

open Sys2Proof

-- The branches of the shared operations, by their condition

/-- An argument fault turns the request away (R191). -/
theorem exec_request_fault {i : Instr} {r : Request} {s : State} {e : Status} (h : encode i = some (.request r))
    (hs : s.seq = []) (he : argumentFault s.cfg i = some e) : exec i s = .next ((s.latch r).raise e none) := by
  rw [exec_request_eq h]
  exact congrArg _ (startOperation_fault hs he)

/-- Without one the operation begins (R33). -/
theorem exec_request_begin {i : Instr} {r : Request} {s : State} (h : encode i = some (.request r))
    (hs : s.seq = []) (he : argumentFault s.cfg i = none) :
    exec i s = .next ((s.latch r).begin (operationSteps s.cfg i)) := by
  rw [exec_request_eq h]
  exact congrArg _ (startOperation_begin hs he)

theorem send_completes {s : State} (h : s.linkCode = none) (bs : BusState) : s.send bs = s.sendOk bs := by
  unfold State.send; rw [h]

theorem send_fails {s : State} {r : Report} (h : s.linkCode = some r) (bs : BusState) :
    s.send bs = s.sendFail bs r := by
  unfold State.send; rw [h]

theorem recv_completes {s : State} (h : s.linkCode = none) : s.recv = s.recvOk := by
  unfold State.recv; rw [h]

theorem recv_fails {s : State} {r : Report} (h : s.linkCode = some r) : s.recv = s.recvFail r := by
  unfold State.recv; rw [h]

theorem step_resets {s : State} {cfg : Config} (h : s.hostNow.reset = some cfg) :
    step s = .next (State.restart cfg { s with host := s.host.tail }) := by
  rw [step_eq_cycle, cycle, h]

theorem accept_rejects {r : Request} {why : Reject} (h : decode (.request r) = .error why) (c : Bool) (s : State) :
    accept c r s = .refused (.malformedRequest why) := by
  unfold accept; rw [h]

theorem accept_refuses {r : Request} {i : Instr} {s : State} (h : decode (.request r) = .ok i)
    (hw : ¬i.wf s.cfg = true) (c : Bool) : accept c r s = .refused .operandOutOfRange := by
  unfold accept; rw [h]; exact if_neg hw

theorem accept_runs {r : Request} {i : Instr} {s : State} (h : decode (.request r) = .ok i)
    (hw : i.wf s.cfg = true) (c : Bool) :
    accept c r s = onNext (State.raiseCancel c) (exec i { s with req := none }) := by
  unfold accept; rw [h]; exact if_pos hw

theorem engine_ticks {s : State} (h : s.tmr ≠ 0) (c : Bool) : engine c s = .next s.tick := by
  unfold engine; rw [if_pos h]

theorem engine_waits {s : State} (ht : s.tmr = 0) (hs : s.seq = []) (hr : s.req = none) (c : Bool) :
    engine c s = .next s := by
  unfold engine; rw [if_neg (not_not.2 ht), hs, hr]

theorem engine_accepts {s : State} {r : Request} (ht : s.tmr = 0) (hs : s.seq = []) (hr : s.req = some r) (c : Bool) :
    engine c s = accept c r s := by
  unfold engine; rw [if_neg (not_not.2 ht), hs, hr]

theorem engine_cancels {s : State} (ht : s.tmr = 0) (hp : s.cancelPend = true)
    (ha : atCancellationPoint s.seq = true) (c : Bool) : engine c s = .next s.takeCancel := by
  rcases engine_cases c s with ⟨h, -⟩ | ⟨-, h, -⟩ | ⟨-, h, -⟩ | ⟨-, -, -, he⟩ | ⟨-, m, k, -, h, -⟩
  · exact absurd ht h
  · rw [h] at ha; cases ha
  · rw [h] at ha; cases ha
  · exact he
  · exact absurd ⟨hp, ha⟩ h

theorem engine_runs_position {s : State} {m : Micro} {k : List Micro} (ht : s.tmr = 0) (hs : s.seq = m :: k)
    (h : ¬(s.cancelPend = true ∧ atCancellationPoint s.seq = true)) (c : Bool) :
    engine c s = runMicro m (s.goto k) :=
  engine_runs ht hs (by rw [← hs]; rwa [not_and_or, Bool.not_eq_true, Bool.not_eq_true] at h)

theorem onNext_onNext (f g : State → State) (o : Host.Outcome State Fault Refusal) :
    onNext f (onNext g o) = onNext (fun s => f (g s)) o := by
  cases o <;> rfl

theorem onNext_of_fixed {f : State → State} {o : Host.Outcome State Fault Refusal}
    (h : ∀ t, o = .next t → f t = t) : onNext f o = o := by
  cases o with
  | next t => exact congrArg _ (h t rfl)
  | fault _ | refused _ => rfl

/-- The positions the loop head puts in front of `SEQ` (R27, R164 to R166). -/
def loopPositions (s : State) : List Micro :=
  if s.idx = s.dataEnd then []
  else if s.op = 0x6#4 then [.run .readData, .byteRead, .dataLoop]
  else
    match s.aBytes[s.idx]? with
    | some b => [.run (.data b), .byteSent, .dataLoop]
    | none => [.dataLoop]

theorem dataLoop_eq_push (s : State) : dataLoop s = s.push (loopPositions s) := by
  unfold loopPositions
  rcases dataLoop_cases s with ⟨h, hd⟩ | ⟨h, ho, hd⟩ | ⟨h, ho, b, hb, hd⟩ | ⟨h, ho, hb, hd⟩
  · rw [hd, if_pos h]; rfl
  · rw [hd, if_neg h, if_pos ho]
  · rw [hd, if_neg h, if_neg ho, hb]
  · rw [hd, if_neg h, if_neg ho, hb]

-- What every move keeps

/-- The operand latches of R24, as one value. -/
def State.operands (s : State) : BitVec 4 × BitVec 1 × BitVec 6 × BitVec 3 × BitVec 4 × Nat × List Byte :=
  (s.op, s.aLine, s.aCol, s.aFlags, s.aCode, s.aLen, s.aBytes)

/-- The position runs no host operation. -/
def RunsNoRequest (m : Micro) : Prop := ∀ i, m = .run i ∨ m = .unit i → ∀ r, encode i ≠ some (.request r)

/-- What no move of the engine writes once the host's input is consumed: the configuration, the host's list. -/
structure Kept (s t : State) : Prop where
  cfg : t.cfg = s.cfg
  host : t.host = s.host

theorem exec_keeps {i : Instr} {s t : State} (h : exec i s = .next t) : Kept s t ∧ t.req = s.req := by
  rcases request_or_not i with ⟨r, hr⟩ | hi
  · rcases exec_request_next_cases hr h with ⟨-, rfl⟩ | ⟨-, e, -, rfl⟩ | ⟨-, -, rfl⟩
    all_goals exact ⟨⟨rfl, rfl⟩, rfl⟩
  · obtain rfl := exec_transaction_next hi h
    exact ⟨⟨rfl, rfl⟩, rfl⟩

theorem decodeStatus_no_request (b : Byte) : ∀ r, encode (decodeStatus b) ≠ some (.request r) :=
  fun _ h => nomatch h

/-- A move of the sequencer keeps the configuration, the host's list and the request channel, and the operand latches
unless it begins a host operation. -/
theorem runMicro_keeps {m : Micro} {s t : State} (h : runMicro m s = .next t) :
    Kept s t ∧ t.req = s.req ∧ (RunsNoRequest m → t.operands = s.operands) := by
  cases m with
  | run i =>
    obtain ⟨hk, hq⟩ := exec_keeps h
    exact ⟨hk, hq, fun hm => by rw [exec_transaction_next (hm i (.inl rfl)) h]; rfl⟩
  | unit i =>
    obtain ⟨hk, hq⟩ := exec_keeps h
    exact ⟨hk, hq, fun hm => by rw [exec_transaction_next (hm i (.inr rfl)) h]; rfl⟩
  | statusTest =>
    obtain ⟨hk, hq⟩ := exec_keeps (i := decodeStatus s.byte) (s := s) h
    exact ⟨hk, hq, fun _ => by rw [exec_transaction_next (decodeStatus_no_request s.byte) h]; rfl⟩
  | send bs =>
    cases h
    rcases s.send_cases bs with ⟨-, hs⟩ | ⟨r, -, hs⟩ <;> rw [hs] <;> exact ⟨⟨rfl, rfl⟩, rfl, fun _ => rfl⟩
  | recv =>
    obtain ⟨-, rfl⟩ := bfOnly_next h
    rcases s.recv_cases with ⟨-, hs⟩ | ⟨r, -, hs⟩ <;> rw [hs] <;> exact ⟨⟨rfl, rfl⟩, rfl, fun _ => rfl⟩
  | dataLoop =>
    cases h
    rw [dataLoop_eq_push]
    exact ⟨⟨rfl, rfl⟩, rfl, fun _ => rfl⟩
  | writeLow | readLow | keepRead | startData | byteSent | byteRead | finish =>
    cases h; exact ⟨⟨rfl, rfl⟩, rfl, fun _ => rfl⟩

theorem engine_keeps {c : Bool} {s t : State} (h : engine c s = .next t) : Kept s t := by
  rcases engine_cases c s with ⟨-, he⟩ | ⟨-, -, -, he⟩ | ⟨-, -, r, -, he⟩ | ⟨-, -, -, he⟩ | ⟨-, m, k, -, -, he⟩ <;>
    rw [he] at h
  case inr.inr.inl =>
    obtain ⟨i, u, -, -, hu, rfl⟩ := accept_next h
    obtain ⟨⟨hc, hh⟩, -⟩ := exec_keeps hu
    exact ⟨hc, hh⟩
  case inr.inr.inr.inr =>
    obtain ⟨⟨hc, hh⟩, -⟩ := runMicro_keeps h
    exact ⟨hc, hh⟩
  all_goals cases h; exact ⟨rfl, rfl⟩

/-- A move of a busy engine keeps the request channel, and the operand latches unless the position begins a host
operation. -/
theorem engine_busy_keeps {c : Bool} {s t : State} (hs : s.seq ≠ []) (h : engine c s = .next t) :
    t.req = s.req ∧ ((∀ m ∈ s.seq, RunsNoRequest m) → t.operands = s.operands) := by
  rcases engine_cases c s with ⟨-, he⟩ | ⟨-, h0, -⟩ | ⟨-, h0, -⟩ | ⟨-, -, -, he⟩ | ⟨-, m, k, hm, -, he⟩
  · rw [he] at h; cases h; exact ⟨rfl, fun _ => rfl⟩
  · exact absurd h0 hs
  · exact absurd h0 hs
  · rw [he] at h; cases h; exact ⟨rfl, fun _ => rfl⟩
  · rw [he] at h
    obtain ⟨-, hq, ho⟩ := runMicro_keeps h
    exact ⟨hq, fun hall => ho (hall m (by rw [hm]; exact List.mem_cons_self))⟩

/-- Settles O46: neither the host's other acts nor a move of the engine writes the configuration. -/
theorem configurationIsConstant : Obligations.ConfigurationIsConstant := by
  intro s t h hr
  rw [step_no_reset hr] at h
  exact (engine_keeps h).cfg.trans (afterHost_cfg s)

/-- A position the invariant admits runs no host operation. -/
theorem runsNoRequest_of_legal {cfg : Config} {m : Micro} (h : m.legal cfg = true) : RunsNoRequest m := by
  intro i hm r hr
  have hlegal : runLegal cfg i = true ∨ unitLegal cfg i = true := by
    rcases hm with rfl | rfl
    · exact .inl h
    · exact .inr h
  cases i
  case opInit | opClear | opHome | opEntryMode | opDisplayControl | opWrite | opRead | opDefineChar | opReserved =>
    simp [runLegal, unitLegal] at hlegal
  all_goals cases hr

/-- Settles O36: the positions of the invariant run no host operation, and nothing else writes a latch. -/
theorem operandLatchesAreConstant : Obligations.OperandLatchesAreConstant := by
  intro s t hinv hs hr h
  rw [step_no_reset hr] at h
  have hkept : t.operands = s.operands := by
    refine ((engine_busy_keeps (by rwa [afterHost_seq]) h).2 fun m hm => ?_).trans ?_
    · rw [afterHost_seq] at hm
      exact runsNoRequest_of_legal (hinv.legal m hm)
    · simp [State.operands]
  simpa [State.operands] using hkept

-- BUS, STATUS and, on a busy engine, the request channel are not read

/-- A change of the fields no move of a busy engine reads. -/
structure Overwrite where
  bus : BusState → BusState
  status : Status → Status
  req : Option Request → Option Request

def State.overwrite (w : Overwrite) (s : State) : State :=
  { s with bus := w.bus s.bus, status := w.status s.status, req := w.req s.req }

/-- What `w` changed, `w'` hides. -/
structure Hides (w' w : Overwrite) : Prop where
  bus : ∀ x, w'.bus (w.bus x) = w'.bus x
  status : ∀ x, w'.status (w.status x) = w'.status x
  req : ∀ x, w'.req (w.req x) = w'.req x

section
variable {w w' : Overwrite} (hw : Hides w' w)
include hw

theorem overwrite_overwrite (s : State) : (s.overwrite w).overwrite w' = s.overwrite w' := by
  simp only [State.overwrite, hw.bus, hw.status, hw.req]

theorem raise_overwrite (e : Status) (r : Option Report) (s : State) :
    ((s.overwrite w).raise e r).overwrite w' = (s.raise e r).overwrite w' := by
  simp only [State.overwrite, State.raise, hw.bus, hw.req]

theorem exec_overwrite (i : Instr) (s : State) :
    onNext (State.overwrite w') (exec i (s.overwrite w)) = onNext (State.overwrite w') (exec i s) := by
  rcases request_or_not i with ⟨r, hr⟩ | hi
  · by_cases hs : s.seq = []
    · cases hf : argumentFault s.cfg i with
      | some e =>
        rw [exec_request_fault hr hs hf, exec_request_fault (s := s.overwrite w) hr hs hf]
        exact congrArg Host.Outcome.next (raise_overwrite hw e none (s.latch r))
      | none =>
        rw [exec_request_begin hr hs hf, exec_request_begin (s := s.overwrite w) hr hs hf]
        exact congrArg Host.Outcome.next (overwrite_overwrite hw ((s.latch r).begin (operationSteps s.cfg i)))
    · rw [exec_request_busy hr hs, exec_request_busy (s := s.overwrite w) hr hs]
      exact congrArg Host.Outcome.next (overwrite_overwrite hw s)
  · rcases exec_transaction_cases hi s.cfg with he | ⟨why, he⟩
    · rw [he s rfl, he (s.overwrite w) rfl]
      exact congrArg Host.Outcome.next (overwrite_overwrite hw (transaction i s))
    · rw [he s rfl, he (s.overwrite w) rfl]

theorem send_overwrite (bs : BusState) (s : State) :
    ((s.overwrite w).send bs).overwrite w' = (s.send bs).overwrite w' := by
  cases hl : s.linkCode with
  | none =>
    rw [send_completes hl, send_completes (s := s.overwrite w) hl]
    simp only [State.overwrite, State.sendOk, hw.status, hw.req]
  | some r =>
    rw [send_fails hl, send_fails (s := s.overwrite w) hl]
    simp only [State.overwrite, State.sendFail, State.raise, hw.req]

theorem recv_overwrite (s : State) : (s.overwrite w).recv.overwrite w' = s.recv.overwrite w' := by
  cases hl : s.linkCode with
  | none =>
    rw [recv_completes hl, recv_completes (s := s.overwrite w) hl]
    exact overwrite_overwrite hw s.recvOk
  | some r =>
    rw [recv_fails hl, recv_fails (s := s.overwrite w) hl]
    exact raise_overwrite hw _ _ { s with trace := s.trace ++ [.recvFailed], link := s.link.tail }

theorem runMicro_overwrite (m : Micro) (s : State) :
    onNext (State.overwrite w') (runMicro m (s.overwrite w)) = onNext (State.overwrite w') (runMicro m s) := by
  cases m with
  | run i | unit i => exact exec_overwrite hw i s
  | statusTest => exact exec_overwrite hw (decodeStatus s.byte) s
  | send bs => exact congrArg Host.Outcome.next (send_overwrite hw bs s)
  | recv =>
    rcases bfOnly_uniform "recv" State.recv s.cfg with he | ⟨why, he⟩
    · simp only [runMicro, he s rfl, he (s.overwrite w) rfl]
      exact congrArg Host.Outcome.next (recv_overwrite hw s)
    · simp only [runMicro, he s rfl, he (s.overwrite w) rfl]
  | dataLoop =>
    simp only [runMicro, dataLoop_eq_push]
    exact congrArg Host.Outcome.next (overwrite_overwrite hw (s.push (loopPositions s)))
  | finish =>
    refine congrArg Host.Outcome.next ?_
    simp only [State.overwrite, State.complete, hw.bus, hw.req]
    rfl
  | writeLow | readLow | keepRead | startData | byteSent | byteRead =>
    simp only [runMicro, onNext, State.overwrite, State.push, hw.bus, hw.status, hw.req]

theorem accept_overwrite (hq : w.req = id) (c : Bool) (r : Request) (s : State) :
    onNext (State.overwrite w') (accept c r (s.overwrite w)) = onNext (State.overwrite w') (accept c r s) := by
  cases hd : decode (.request r) with
  | error why => rw [accept_rejects hd, accept_rejects hd]
  | ok i =>
    by_cases hwf : i.wf s.cfg = true
    · have hnone : ({ s.overwrite w with req := none } : State) = State.overwrite w { s with req := none } := by
        simp only [State.overwrite, hq, id]
      rw [accept_runs hd hwf, accept_runs (s := s.overwrite w) hd hwf, hnone]
      have h := congrArg (onNext (State.raiseCancel c)) (exec_overwrite hw i { s with req := none })
      rw [onNext_onNext, onNext_onNext] at h ⊢
      exact h
    · rw [accept_refuses hd hwf, accept_refuses (s := s.overwrite w) hd hwf]

/-- The request channel may be changed as long as the engine is busy. -/
theorem engine_overwrite (c : Bool) {s : State} (hq : s.seq ≠ [] ∨ w.req = id) :
    onNext (State.overwrite w') (engine c (s.overwrite w)) = onNext (State.overwrite w') (engine c s) := by
  have hreq : s.seq = [] → w.req = id := fun hs => hq.resolve_left (not_not.2 hs)
  rcases engine_cases c s with ⟨ht, he⟩ | ⟨ht, hs, hr, he⟩ | ⟨ht, hs, r, hr, he⟩ | ⟨ht, hp, ha, he⟩ |
    ⟨ht, m, k, hm, hc, he⟩
  · rw [he, engine_ticks (s := s.overwrite w) ht]
    exact congrArg Host.Outcome.next (overwrite_overwrite hw s.tick)
  · rw [he, engine_waits (s := s.overwrite w) ht hs (by simp only [State.overwrite, hreq hs, id, hr])]
    exact congrArg Host.Outcome.next (overwrite_overwrite hw s)
  · rw [he, engine_accepts (s := s.overwrite w) (r := r) ht hs (by simp only [State.overwrite, hreq hs, id, hr])]
    exact accept_overwrite hw (hreq hs) c r s
  · rw [he, engine_cancels (s := s.overwrite w) ht hp ha]
    exact congrArg Host.Outcome.next (raise_overwrite hw .cancelled none s)
  · rw [he, engine_runs_position (s := s.overwrite w) ht hm hc]
    exact runMicro_overwrite hw m (s.goto k)

end

/-- Other values in `BUS` and `STATUS`. -/
def otherBusStatus (b : BusState) (e : Status) : Overwrite := ⟨fun _ => b, fun _ => e, id⟩

/-- Another request, or none, on the channel. -/
def otherRequest (q : Option Request) : Overwrite := ⟨id, id, fun _ => q⟩

theorem overwrite_otherRequest_self {t : State} {q : Option Request} (h : t.req = q) :
    t.overwrite (otherRequest q) = t := by
  cases t; cases h; rfl

/-- Settles O48: reset discards both fields, and no move of the engine reads either. -/
theorem busAndStatusAreNotRead : Obligations.BusAndStatusAreNotRead := by
  intro s b b' e e'
  have hafter : State.afterHost { s with bus := b, status := e } = s.afterHost.overwrite (otherBusStatus b e) := by
    rw [afterHost_eq, afterHost_eq]; rfl
  have hides : Hides (otherBusStatus b' e') (otherBusStatus b e) := ⟨fun _ => rfl, fun _ => rfl, fun _ => rfl⟩
  cases hr : s.hostNow.reset with
  | some cfg => rw [step_resets hr, step_resets (s := { s with bus := b, status := e }) hr]; rfl
  | none =>
    rw [step_no_reset hr, step_no_reset (s := { s with bus := b, status := e }) hr, hafter]
    exact engine_overwrite hides s.hostNow.cancel (.inr rfl)

/-- Settles O38: the host presents nothing, a busy engine does not look at the channel, and it leaves the request
there. -/
theorem waitingRequestHasNoEffect : Obligations.WaitingRequestHasNoEffect := by
  intro s q hs hr hp
  have hafter : State.afterHost { s with req := q } = s.afterHost.overwrite (otherRequest q) := by
    have hnow : State.hostNow { s with req := q } = s.hostNow := rfl
    rw [afterHost_eq, afterHost_eq, hnow, hp]
    rfl
  have hbusy : s.afterHost.seq ≠ [] := by rwa [afterHost_seq]
  have hides : Hides (otherRequest q) (otherRequest q) := ⟨fun _ => rfl, fun _ => rfl, fun _ => rfl⟩
  have hkeeps : ∀ t, engine s.hostNow.cancel (s.afterHost.overwrite (otherRequest q)) = .next t →
      t.overwrite (otherRequest q) = t := fun t he =>
    overwrite_otherRequest_self (engine_busy_keeps (s := s.afterHost.overwrite (otherRequest q)) hbusy he).1
  rw [step_no_reset hr, step_no_reset (s := { s with req := q }) hr, hafter]
  exact (onNext_of_fixed hkeeps).symm.trans (engine_overwrite hides s.hostNow.cancel (.inl hbusy))

end Sys2Proof.Machine
end

section
/-! PROOFS of the family 10_state: an idle engine has no memory (R22). Two engines whose registers agree, except for
those that will be written before they are read, make the same steps. -/

namespace Sys2Proof.Machine

open Sys2Proof

-- Which positions read and write the registers an operation leaves behind

/-- What a position does first with a register. -/
inductive Use where
  | reads
  | sets
  | ignores

/-- The registers an operation sets up for itself before it reads them (R25, R27, R122); what a `recv` does with `BYTE`
depends on `PHASE`. -/
inductive Reg where
  | phase
  | byte (p : Phase)
  | idx
  | rdata

/-- `recv` fills the nibble of `BYTE` that `PHASE` names (R101). -/
@[simp] def phaseUse : Micro → Use
  | .recv | .run (.read4 _) | .unit (.read4 _) => .reads
  | .run (.write8 _ _) | .unit (.write8 _ _) | .run (.read8 _) | .unit (.read8 _) => .sets
  | .writeLow _ | .readLow _ => .sets
  | _ => .ignores

/-- `recv` replaces the whole of `BYTE` in the high phase, and keeps its high nibble in the low one (R103, log 12). -/
@[simp] def byteUse (p : Phase) : Micro → Use
  | .recv | .run (.read4 _) | .unit (.read4 _) => if p = .hi then .sets else .reads
  | .run (.write8 _ _) | .unit (.write8 _ _) | .run (.read8 _) | .unit (.read8 _) => .sets
  | .writeLow _ | .readLow _ | .statusTest | .keepRead => .reads
  | _ => .ignores

/-- `IDX` starts again with each data phase (R27). -/
@[simp] def idxUse : Micro → Use
  | .startData => .sets
  | .dataLoop | .byteSent | .byteRead => .reads
  | _ => .ignores

/-- `readData` keeps the value before the loop takes it (R122, R165). -/
@[simp] def rdataUse : Micro → Use
  | .keepRead | .run .readData | .unit .readData => .sets
  | .byteRead => .reads
  | _ => .ignores

@[simp] def Micro.use : Reg → Micro → Use
  | .phase, m => phaseUse m
  | .byte p, m => byteUse p m
  | .idx, m => idxUse m
  | .rdata, m => rdataUse m

/-- No position of `SEQ` reads the register before one sets it. -/
@[simp] def Dead (r : Reg) : List Micro → Prop
  | [] => True
  | m :: ms => m.use r = .sets ∨ m.use r = .ignores ∧ Dead r ms

theorem not_dead_of_reads {r : Reg} {m : Micro} {k : List Micro} (h : m.use r = .reads) : ¬Dead r (m :: k) := by
  simp only [Dead, h, reduceCtorEq, false_and, or_self, not_false_eq_true]

theorem dead_of_ignores {r : Reg} {m : Micro} {k : List Micro} (h : m.use r = .ignores) (hd : Dead r (m :: k)) :
    Dead r k := by
  simpa only [Dead, h, reduceCtorEq, true_and, false_or] using hd

theorem dead_append_of_ignores {r : Reg} {ms k : List Micro} (h : ∀ m ∈ ms, m.use r = .ignores) (hd : Dead r k) :
    Dead r (ms ++ k) := by
  induction ms with
  | nil => exact hd
  | cons m ms ih => exact .inr ⟨h m List.mem_cons_self, ih fun x hx => h x (List.mem_cons_of_mem m hx)⟩

/-- A unit's instruction uses registers as it does where no cancellation point stands before it. -/
theorem use_unit (i : Instr) (r : Reg) : (Micro.unit i).use r = (Micro.run i).use r := by
  cases i <;> cases r <;> rfl

/-- A host operation uses none of the registers before it has set them. -/
theorem use_request {i : Instr} {q : Request} (h : encode i = some (.request q)) (r : Reg) :
    (Micro.run i).use r = .ignores := by
  cases i
  case opInit | opClear | opHome | opEntryMode | opDisplayControl | opWrite | opRead | opDefineChar | opReserved =>
    cases r <;> rfl
  all_goals cases h

/-- The positions of a transaction that is no `write8` and no `read8` use a register as the transaction does. -/
theorem dead_expansion {r : Reg} {i : Instr} {k : List Micro} (cfg : Config) (hw : ∀ rs b, i ≠ .write8 rs b)
    (hr : ∀ rs, i ≠ .read8 rs) (h : Dead r (.run i :: k)) : Dead r (expansion cfg i ++ k) := by
  cases i
  case write8 rs b => exact absurd rfl (hw rs b)
  case read8 rs => exact absurd rfl (hr rs)
  case doCmd b | doData b =>
    -- `write8` stands first: it sets `BYTE` and `PHASE`
    revert h; cases r <;> simp [expansion, transactionSteps]
  case readData | busyWait =>
    -- `read8` stands first, and `readData` keeps its value before anything takes it
    revert h; cases r <;> simp [expansion]
  case write4 rs n | read4 rs =>
    -- of the events of a nibble only `recv` looks at a register
    revert h; cases r <;> simp [expansion, write4Steps, read4Steps]
  case status busy g => revert h; cases busy <;> cases r <;> simp [expansion]
  case policyWait =>
    revert h
    unfold expansion
    split_ifs <;> cases r <;> simp
  all_goals
    -- one position, or none, that uses what the instruction uses
    revert h; cases r <;> simp [expansion]

/-- A host operation's step list reads nothing that an earlier operation left (R22, R150, R160 to R166). -/
theorem dead_operationSteps (r : Reg) (cfg : Config) (i : Instr) : Dead r (operationSteps cfg i ++ [.finish]) := by
  cases i
  case opInit | opClear =>
    cases hv : cfg.variant <;> cases r <;> simp [operationSteps, initSteps, clearSteps, hv]
  all_goals
    -- the data phase starts `IDX` again before the loop reads it
    cases r <;> simp [operationSteps]

/-- The loop head reads `IDX` first, and its positions set the value read before they take it (R165). -/
theorem dead_loopPositions {r : Reg} {k : List Micro} (s : State) (h : Dead r (.dataLoop :: k)) :
    Dead r (loopPositions s ++ k) := by
  unfold loopPositions
  revert h
  split_ifs
  · cases r <;> simp
  · cases r <;> simp
  · cases s.aBytes[s.idx]? <;> cases r <;> simp

-- Two engines that agree where it matters

/-- The registers and channels an operation depends on from its first step. -/
structure SameWorld (s s' : State) : Prop where
  cfg : s'.cfg = s.cfg
  seq : s'.seq = s.seq
  tmr : s'.tmr = s.tmr
  cancelPend : s'.cancelPend = s.cancelPend
  req : s'.req = s.req
  host : s'.host = s.host
  link : s'.link = s.link
  rx : s'.rx = s.rx
  draws : s'.draws = s.draws

/-- The engines agree, except in what no rule reads and in registers that are dead: the operand latches and `RBUF` of an
idle engine, and what `SEQ` sets before it reads. -/
structure Alike (s s' : State) : Prop extends SameWorld s s' where
  latches : s.seq = [] ∨ s'.operands = s.operands ∧ s'.rbuf = s.rbuf
  phase : s'.phase = s.phase ∨ Dead .phase s.seq
  byte : s'.byte = s.byte ∨ Dead (.byte s.phase) s.seq
  idx : s'.idx = s.idx ∨ Dead .idx s.seq
  rdata : s'.rdata = s.rdata ∨ Dead .rdata s.seq

/-- From `s` to `t` and from `s'` to `t'` the same events and the same responses were added. -/
def GrewAlike (s s' t t' : State) : Prop :=
  ∃ es rs, t.trace = s.trace ++ es ∧ t'.trace = s'.trace ++ es ∧
    t.responses = s.responses ++ rs ∧ t'.responses = s'.responses ++ rs

/-- What the one answers, the other answers alike. -/
def Mirrors (s s' : State) (o o' : Host.Outcome State Fault Refusal) : Prop :=
  ∀ t, o = .next t → ∃ t', o' = .next t' ∧ Alike t t' ∧ GrewAlike s s' t t'

theorem GrewAlike.silent {s s' t t' : State} (h : t.trace = s.trace) (h' : t'.trace = s'.trace)
    (hr : t.responses = s.responses) (hr' : t'.responses = s'.responses) : GrewAlike s s' t t' :=
  ⟨[], [], by simp [h], by simp [h'], by simp [hr], by simp [hr']⟩

theorem GrewAlike.trans {s s' t t' u u' : State} (h : GrewAlike s s' t t') (h₂ : GrewAlike t t' u u') :
    GrewAlike s s' u u' := by
  obtain ⟨es, rs, he, he', hr, hr'⟩ := h
  obtain ⟨fs, qs, hf, hf', hq, hq'⟩ := h₂
  exact ⟨es ++ fs, rs ++ qs, by rw [hf, he, List.append_assoc], by rw [hf', he', List.append_assoc],
    by rw [hq, hr, List.append_assoc], by rw [hq', hr', List.append_assoc]⟩

theorem Mirrors.next {s s' t t' : State} (h : Alike t t') (hg : GrewAlike s s' t t') :
    Mirrors s s' (.next t) (.next t') := fun _ ht => by cases ht; exact ⟨t', rfl, h, hg⟩

theorem Mirrors.refused {s s' : State} {why : Refusal} {o : Host.Outcome State Fault Refusal} :
    Mirrors s s' (.refused why) o := fun _ ht => nomatch ht

/-- An idle engine's registers are all dead. -/
theorem SameWorld.alike_of_idle {s s' : State} (h : SameWorld s s') (hs : s.seq = []) : Alike s s' :=
  { h with
    latches := .inl hs
    phase := .inr (hs ▸ trivial)
    byte := .inr (hs ▸ trivial)
    idx := .inr (hs ▸ trivial)
    rdata := .inr (hs ▸ trivial) }

section
variable {s s' : State} (h : Alike s s')
include h

theorem Alike.tick : Alike s.tick s'.tick := { h with tmr := congrArg (· - 1) h.tmr }

theorem Alike.busy : s'.busy = s.busy := congrArg (fun ms => !List.isEmpty ms) h.seq

theorem Alike.hostNow : s'.hostNow = s.hostNow := congrArg (fun l => List.headD l ({} : HostInput)) h.host

theorem Alike.raiseCancel (c : Bool) : Alike (s.raiseCancel c) (s'.raiseCancel c) :=
  { h with cancelPend := by rw [State.raiseCancel_cancelPend, State.raiseCancel_cancelPend, h.cancelPend, h.busy] }

theorem Alike.afterHost : Alike s.afterHost s'.afterHost := by
  rw [afterHost_eq, afterHost_eq, h.hostNow, h.busy]
  exact { h with
    host := congrArg List.tail h.host
    req := congrArg (s.hostNow.present.or ·) h.req
    cancelPend := congrArg (· || (s.hostNow.cancel && s.busy)) h.cancelPend }

theorem Alike.withoutReq : Alike { s with req := none } { s' with req := none } := { h with req := rfl }

theorem Alike.linkCode : s'.linkCode = s.linkCode := congrArg (fun l => List.headD l none) h.link

theorem Alike.answer : s'.answer = s.answer := by rw [State.answer, State.answer, h.rx, h.draws]

theorem Alike.drawsAfterAnswer : s'.drawsAfterAnswer = s.drawsAfterAnswer := by
  rw [State.drawsAfterAnswer, State.drawsAfterAnswer, h.rx, h.draws]

-- Acceptance

/-- A host operation latches its operands anew, and its step list reads nothing else (R24, R22). -/
theorem Alike.exec_request {i : Instr} {r : Request} (hr : encode i = some (.request r)) :
    Mirrors s s' (exec i s) (exec i s') := by
  by_cases hs : s.seq = []
  · have hs' : s'.seq = [] := h.seq.trans hs
    cases hf : argumentFault s.cfg i with
    | some e =>
      rw [exec_request_fault hr hs hf, exec_request_fault hr hs' (h.cfg.symm ▸ hf)]
      exact .next (SameWorld.alike_of_idle { h with seq := rfl, cancelPend := rfl } rfl)
        ⟨[], _, (List.append_nil _).symm, (List.append_nil _).symm, rfl, rfl⟩
    | none =>
      rw [exec_request_begin hr hs hf, exec_request_begin hr hs' (h.cfg.symm ▸ hf), h.cfg]
      refine .next ?_ (.silent rfl rfl rfl rfl)
      exact { h with
        seq := rfl
        latches := .inr ⟨rfl, rfl⟩
        phase := .inr (dead_operationSteps _ _ _)
        byte := .inr (dead_operationSteps _ _ _)
        idx := .inr (dead_operationSteps _ _ _)
        rdata := .inr (dead_operationSteps _ _ _) }
  · rw [exec_request_busy hr hs, exec_request_busy hr (h.seq.symm ▸ hs)]
    exact .next h (.silent rfl rfl rfl rfl)

omit h in
theorem Mirrors.raiseCancel {o o' : Host.Outcome State Fault Refusal} (ho : Mirrors s s' o o') (c : Bool) :
    Mirrors s s' (onNext (State.raiseCancel c) o) (onNext (State.raiseCancel c) o') := by
  intro t ht
  obtain ⟨u, hu, rfl⟩ := onNext_next ht
  obtain ⟨u', rfl, ha, hg⟩ := ho u hu
  exact ⟨u'.raiseCancel c, rfl, ha.raiseCancel c, hg⟩

theorem Alike.accept (c : Bool) (r : Request) : Mirrors s s' (accept c r s) (accept c r s') := by
  cases hd : decode (.request r) with
  | error why => rw [accept_rejects hd]; exact .refused
  | ok i =>
    by_cases hw : i.wf s.cfg = true
    · obtain ⟨r', hr'⟩ := decode_request_encodes hd
      rw [accept_runs hd hw, accept_runs hd (h.cfg.symm ▸ hw)]
      exact Mirrors.raiseCancel (h.withoutReq.exec_request hr') c
    · rw [accept_refuses hd hw]; exact .refused

end

-- One position of SEQ

section
variable {s s' : State} {m : Micro} {k : List Micro} (h : Alike s s') (hs : s.seq = m :: k)
include h hs

theorem Alike.operands_eq : s'.operands = s.operands ∧ s'.rbuf = s.rbuf :=
  h.latches.resolve_left (hs ▸ List.cons_ne_nil m k)

omit h in
/-- A register the position reads is not dead. -/
theorem agrees_of_reads {p : Prop} {r : Reg} (hx : p ∨ Dead r s.seq) (hu : m.use r = .reads) : p :=
  hx.resolve_right (hs ▸ not_dead_of_reads hu)

omit h in
/-- A register the position ignores is dead before it only if it is dead after it. -/
theorem agrees_or_dead {p : Prop} {r : Reg} (hx : p ∨ Dead r s.seq) (hu : m.use r = .ignores) : p ∨ Dead r k :=
  hx.imp_right fun hd => dead_of_ignores hu (hs ▸ hd)

omit h in
/-- The same where positions that ignore the register are put in its place. -/
theorem agrees_or_dead_push {p : Prop} {r : Reg} {ms : List Micro} (hx : p ∨ Dead r s.seq) (hu : m.use r = .ignores)
    (hms : ∀ x ∈ ms, x.use r = .ignores) : p ∨ Dead r (ms ++ k) :=
  (agrees_or_dead hs hx hu).imp_right (dead_append_of_ignores hms)

omit hs in
theorem Alike.world_goto (ms : List Micro) : SameWorld (s.goto ms) (s'.goto ms) := { h with seq := rfl }

/-- Other positions may stand in its place, if they use every register as it does. -/
theorem Alike.goto {ms : List Micro} (hd : ∀ r, Dead r (m :: k) → Dead r ms) : Alike (s.goto ms) (s'.goto ms) :=
  { h.world_goto ms with
    latches := .inr (h.operands_eq hs)
    phase := h.phase.imp_right fun hp => hd _ (hs ▸ hp)
    byte := h.byte.imp_right fun hp => hd _ (hs ▸ hp)
    idx := h.idx.imp_right fun hp => hd _ (hs ▸ hp)
    rdata := h.rdata.imp_right fun hp => hd _ (hs ▸ hp) }

theorem Alike.goto_rest (hu : ∀ r, m.use r = .ignores) : Alike (s.goto k) (s'.goto k) :=
  h.goto hs fun r => dead_of_ignores (hu r)

end

section
variable {s s' : State} {k : List Micro} (h : Alike s s')
include h

theorem Alike.send_position {bs : BusState} (hs : s.seq = .send bs :: k) :
    Mirrors s s' (.next ((s.goto k).send bs)) (.next ((s'.goto k).send bs)) := by
  have ha := h.goto_rest hs fun r => by cases r <;> rfl
  cases hl : s.linkCode with
  | none =>
    rw [send_completes (s := s.goto k) hl, send_completes (s := s'.goto k) (h.linkCode.trans hl)]
    exact .next { ha with link := congrArg List.tail h.link }
      ⟨[.send bs], [], rfl, rfl, (List.append_nil _).symm, (List.append_nil _).symm⟩
  | some r =>
    rw [send_fails (s := s.goto k) hl, send_fails (s := s'.goto k) (h.linkCode.trans hl)]
    exact .next (SameWorld.alike_of_idle { ha with
        seq := rfl
        cancelPend := rfl
        link := congrArg List.tail h.link
        draws := congrArg (· + 1) h.draws } rfl)
      ⟨[.sendFailed bs], _, rfl, rfl, rfl, rfl⟩

/-- The nibble received goes to the same place of `BYTE`; in the high phase nothing of the old `BYTE` is left. -/
theorem Alike.recv_position (hs : s.seq = .recv :: k) :
    Mirrors s s' (.next (s.goto k).recv) (.next (s'.goto k).recv) := by
  have hw := h.world_goto k
  cases hl : s.linkCode with
  | none =>
    have hphase : s'.phase = s.phase := agrees_of_reads hs h.phase rfl
    have hbyte : collectNibble s'.phase s'.byte (recvNibble s'.answer) =
        collectNibble s.phase s.byte (recvNibble s.answer) := by
      rw [hphase, h.answer]
      cases hp : s.phase with
      | hi => rfl
      | lo => rw [agrees_of_reads hs h.byte (by rw [hp]; rfl)]
    rw [recv_completes (s := s.goto k) hl, recv_completes (s := s'.goto k) (h.linkCode.trans hl)]
    refine .next { hw with
        link := congrArg List.tail h.link
        rx := congrArg List.tail h.rx
        draws := h.drawsAfterAnswer
        latches := .inr (h.operands_eq hs)
        phase := .inl hphase
        byte := .inl hbyte
        idx := agrees_or_dead hs h.idx rfl
        rdata := agrees_or_dead hs h.rdata rfl }
      ⟨[.recv s.answer], [], rfl, ?_, (List.append_nil _).symm, (List.append_nil _).symm⟩
    rw [← h.answer]; rfl
  | some r =>
    rw [recv_fails (s := s.goto k) hl, recv_fails (s := s'.goto k) (h.linkCode.trans hl)]
    exact .next (SameWorld.alike_of_idle { hw with
        seq := rfl
        cancelPend := rfl
        link := congrArg List.tail h.link } rfl)
      ⟨[.recvFailed], _, rfl, rfl, rfl, rfl⟩

omit h in
/-- The one transaction that issues an event issues the same one after any trace. -/
theorem traceAfter_eq_append (i : Instr) : ∃ es, ∀ tr, traceAfter i tr = tr ++ es := by
  cases i
  case delay n => exact ⟨[.delay n], fun _ => rfl⟩
  all_goals exact ⟨[], fun tr => (List.append_nil tr).symm⟩

/-- A transaction uses registers as the positions it puts in front of `SEQ` do; `write8` and `read8` set what these
read. -/
theorem Alike.transaction {i : Instr} (hs : s.seq = .run i :: k) :
    Alike (transaction i (s.goto k)) (transaction i (s'.goto k)) := by
  have hw : SameWorld (Machine.transaction i (s.goto k)) (Machine.transaction i (s'.goto k)) :=
    { h.world_goto k with
      seq := congrArg (expansion · i ++ k) h.cfg
      tmr := congrArg₂ (tmrAfter · i ·) h.cfg h.tmr }
  by_cases h8 : ∃ rs b, i = .write8 rs b
  · obtain ⟨rs, b, rfl⟩ := h8
    exact { hw with
      latches := .inr (h.operands_eq hs)
      phase := .inl rfl
      byte := .inl rfl
      idx := agrees_or_dead_push hs h.idx rfl (by simp [expansion])
      rdata := agrees_or_dead_push hs h.rdata rfl (by simp [expansion]) }
  by_cases hr : ∃ rs, i = .read8 rs
  · obtain ⟨rs, rfl⟩ := hr
    exact { hw with
      latches := .inr (h.operands_eq hs)
      phase := .inl rfl
      byte := .inr (.inl rfl)
      idx := agrees_or_dead_push hs h.idx rfl (by simp [expansion])
      rdata := agrees_or_dead_push hs h.rdata rfl (by simp [expansion]) }
  push Not at h8 hr
  have hd : ∀ r, Dead r s.seq → Dead r (expansion s.cfg i ++ k) := fun r hd =>
    dead_expansion s.cfg h8 hr (hs ▸ hd)
  have hbyte : ∀ old, byteAfter i old = old := fun old => by
    cases i
    case write8 rs b => exact absurd rfl (h8 rs b)
    all_goals rfl
  have hphase : ∀ old, phaseAfter i old = old := fun old => by
    cases i
    case write8 rs b => exact absurd rfl (h8 rs b)
    case read8 rs => exact absurd rfl (hr rs)
    all_goals rfl
  refine { hw with
    latches := .inr (h.operands_eq hs)
    idx := h.idx.imp_right (hd _)
    rdata := h.rdata.imp_right (hd _)
    phase := ?_
    byte := ?_ }
  · show phaseAfter i s'.phase = phaseAfter i s.phase ∨ _
    rw [hphase, hphase]
    exact h.phase.imp_right (hd _)
  · show byteAfter i s'.byte = byteAfter i s.byte ∨ Dead (.byte (phaseAfter i s.phase)) _
    rw [hbyte, hbyte, hphase]
    exact h.byte.imp_right (hd _)

theorem Alike.exec_position {i : Instr} (hs : s.seq = .run i :: k) :
    Mirrors s s' (exec i (s.goto k)) (exec i (s'.goto k)) := by
  rcases request_or_not i with ⟨r, hr⟩ | hi
  · exact (h.goto_rest hs (use_request hr)).exec_request hr
  · rcases exec_transaction_cases hi s.cfg with he | ⟨why, he⟩
    · obtain ⟨es, hes⟩ := traceAfter_eq_append i
      rw [he (s.goto k) rfl, he (s'.goto k) h.cfg]
      exact .next (h.transaction hs) ⟨es, [], hes _, hes _, (List.append_nil _).symm, (List.append_nil _).symm⟩
    · rw [he (s.goto k) rfl]; exact .refused

/-- The low nibble of a pair begins: the high one has been read or written, so `BYTE` agrees (R102, R103). -/
theorem Alike.low_nibble {m : Micro} {i : Instr} (hs : s.seq = m :: k)
    (hm : ∃ rs, m = .writeLow rs ∨ m = .readLow rs)
    (hi : ∀ r, r = .idx ∨ r = .rdata → (Micro.run i).use r = .ignores) :
    Alike (State.push [.run i] { s.goto k with phase := .lo })
      (State.push [.run i] { s'.goto k with phase := .lo }) := by
  have huse : m.use (.byte s.phase) = .reads ∧ m.use .idx = .ignores ∧ m.use .rdata = .ignores := by
    obtain ⟨rs, rfl | rfl⟩ := hm <;> exact ⟨rfl, rfl, rfl⟩
  obtain ⟨hbyte, hidx, hrdata⟩ := huse
  exact { h.world_goto k with
    seq := rfl
    latches := .inr (h.operands_eq hs)
    phase := .inl rfl
    byte := .inl (agrees_of_reads hs h.byte hbyte)
    idx := agrees_or_dead_push hs h.idx hidx (by rw [List.forall_mem_singleton]; exact hi .idx (.inl rfl))
    rdata := agrees_or_dead_push hs h.rdata hrdata (by rw [List.forall_mem_singleton]; exact hi .rdata (.inr rfl)) }

/-- The loop head looks at `IDX` and the latches only. -/
theorem Alike.loopPositions_eq (hs : s.seq = .dataLoop :: k) : loopPositions s' = loopPositions s := by
  have hidx : s'.idx = s.idx := agrees_of_reads hs h.idx rfl
  have hops := (h.operands_eq hs).1
  simp only [State.operands, Prod.mk.injEq] at hops
  obtain ⟨hop, -, -, -, -, hlen, hbytes⟩ := hops
  rw [loopPositions, loopPositions, State.dataEnd, State.dataEnd, hidx, hop, hlen, hbytes]

theorem Alike.result_eq {m : Micro} (hs : s.seq = m :: k) : s'.result = s.result := by
  obtain ⟨hops, hrbuf⟩ := h.operands_eq hs
  simp only [State.operands, Prod.mk.injEq] at hops
  rw [State.result, State.result, hops.1, hrbuf]

theorem Alike.runMicro {m : Micro} (hs : s.seq = m :: k) :
    Mirrors s s' (runMicro m (s.goto k)) (runMicro m (s'.goto k)) := by
  have hw := h.world_goto k
  cases m with
  | run i => exact h.exec_position hs
  | unit i =>
    have ha : Alike (s.goto (.run i :: k)) (s'.goto (.run i :: k)) := h.goto hs fun r hd => by
      simpa only [Dead, use_unit] using hd
    exact ha.exec_position rfl
  | statusTest =>
    have hbyte : s'.byte = s.byte := agrees_of_reads hs h.byte rfl
    have ha : Alike (s.goto (.run (decodeStatus s.byte) :: k)) (s'.goto (.run (decodeStatus s.byte) :: k)) :=
      h.goto hs fun r => by cases r <;> simp [decodeStatus]
    show Mirrors s s' (exec (decodeStatus s.byte) (s.goto k)) (exec (decodeStatus s'.byte) (s'.goto k))
    rw [hbyte]
    exact ha.exec_position rfl
  | send bs => exact h.send_position hs
  | recv =>
    rcases bfOnly_uniform "recv" State.recv s.cfg with he | ⟨why, he⟩
    · simp only [Machine.runMicro, he (s.goto k) rfl, he (s'.goto k) h.cfg]
      exact h.recv_position hs
    · simp only [Machine.runMicro, he (s.goto k) rfl]
      exact .refused
  | writeLow rs =>
    have hbyte : s'.byte = s.byte := agrees_of_reads hs h.byte rfl
    have ha := h.low_nibble (i := .write4 rs (loNibble s.byte)) hs ⟨rs, .inl rfl⟩
      fun r hr => by rcases hr with rfl | rfl <;> rfl
    refine .next (t' := State.push [.run (.write4 rs (loNibble s'.byte))] { s'.goto k with phase := .lo }) ?_
      (.silent rfl rfl rfl rfl)
    rw [hbyte]
    exact ha
  | readLow rs =>
    have ha := h.low_nibble (i := .read4 rs) hs ⟨rs, .inr rfl⟩ fun r hr => by rcases hr with rfl | rfl <;> rfl
    exact .next ha (.silent rfl rfl rfl rfl)
  | keepRead =>
    have hbyte : s'.byte = s.byte := agrees_of_reads hs h.byte rfl
    refine .next ?_ (.silent rfl rfl rfl rfl)
    exact { hw with
      latches := .inr (h.operands_eq hs)
      phase := agrees_or_dead hs h.phase rfl
      byte := .inl hbyte
      idx := agrees_or_dead hs h.idx rfl
      rdata := .inl hbyte }
  | startData =>
    refine .next ?_ (.silent rfl rfl rfl rfl)
    exact { hw with
      latches := .inr ⟨(h.operands_eq hs).1, rfl⟩
      phase := agrees_or_dead hs h.phase rfl
      byte := agrees_or_dead hs h.byte rfl
      idx := .inl rfl
      rdata := agrees_or_dead hs h.rdata rfl }
  | dataLoop =>
    have ha : Alike (s.goto (loopPositions s ++ k)) (s'.goto (loopPositions s ++ k)) :=
      h.goto hs fun r hd => dead_loopPositions s hd
    have hpush : ∀ u : State, dataLoop (u.goto k) = u.goto (loopPositions u ++ k) := fun u =>
      dataLoop_eq_push (u.goto k)
    show Mirrors s s' (.next (dataLoop (s.goto k))) (.next (dataLoop (s'.goto k)))
    rw [hpush, hpush, h.loopPositions_eq hs]
    exact .next ha (.silent rfl rfl rfl rfl)
  | byteSent =>
    have hidx : s'.idx = s.idx := agrees_of_reads hs h.idx rfl
    refine .next ?_ (.silent rfl rfl rfl rfl)
    exact { hw with
      latches := .inr (h.operands_eq hs)
      phase := agrees_or_dead hs h.phase rfl
      byte := agrees_or_dead hs h.byte rfl
      idx := .inl (congrArg (· + 1) hidx)
      rdata := agrees_or_dead hs h.rdata rfl }
  | byteRead =>
    have hidx : s'.idx = s.idx := agrees_of_reads hs h.idx rfl
    have hrdata : s'.rdata = s.rdata := agrees_of_reads hs h.rdata rfl
    obtain ⟨hops, hrbuf⟩ := h.operands_eq hs
    refine .next ?_ (.silent rfl rfl rfl rfl)
    exact { hw with
      latches := .inr ⟨hops, congrArg₂ (· ++ [·]) hrbuf hrdata⟩
      phase := agrees_or_dead hs h.phase rfl
      byte := agrees_or_dead hs h.byte rfl
      idx := .inl (congrArg (· + 1) hidx)
      rdata := .inl hrdata }
  | finish =>
    refine .next (SameWorld.alike_of_idle { hw with seq := rfl, cancelPend := rfl } rfl)
      ⟨[], [{ status := .ok, data := s.result, report := none }], (List.append_nil _).symm, (List.append_nil _).symm,
        rfl, ?_⟩
    rw [← h.result_eq hs]
    rfl

-- A step, and a run

theorem Alike.engine (c : Bool) : Mirrors s s' (engine c s) (engine c s') := by
  rcases engine_cases c s with ⟨ht, he⟩ | ⟨ht, hs, hr, he⟩ | ⟨ht, hs, r, hr, he⟩ | ⟨ht, hp, ha, he⟩ |
    ⟨ht, m, k, hm, hc, he⟩
  · rw [he, engine_ticks (h.tmr.trans_ne ht)]
    exact .next h.tick (.silent rfl rfl rfl rfl)
  · rw [he, engine_waits (h.tmr.trans ht) (h.seq.trans hs) (h.req.trans hr)]
    exact .next h (.silent rfl rfl rfl rfl)
  · rw [he, engine_accepts (h.tmr.trans ht) (h.seq.trans hs) (h.req.trans hr)]
    exact h.accept c r
  · rw [he, engine_cancels (h.tmr.trans ht) (h.cancelPend.trans hp) (h.seq ▸ ha)]
    exact .next (SameWorld.alike_of_idle { h with seq := rfl, cancelPend := rfl } rfl)
      ⟨[], _, (List.append_nil _).symm, (List.append_nil _).symm, rfl, rfl⟩
  · rw [he, engine_runs_position (h.tmr.trans ht) (h.seq.trans hm) (by rwa [h.cancelPend, h.seq])]
    exact h.runMicro hm

theorem Alike.step (hr : s.hostNow.reset = none) : Mirrors s s' (step s) (step s') := by
  rw [step_no_reset hr, step_no_reset (h.hostNow.symm ▸ hr), h.hostNow]
  intro t ht
  obtain ⟨t', ht', ha, hg⟩ := h.afterHost.engine s.hostNow.cancel t ht
  refine ⟨t', ht', ha, ?_⟩
  simpa only [GrewAlike, afterHost_trace, afterHost_responses] using hg

end

theorem hostNow_reset_none {s : State} (h : ∀ x ∈ s.host, x.reset = none) : s.hostNow.reset = none := by
  unfold State.hostNow
  cases hl : s.host with
  | nil => rfl
  | cons x xs => exact h x (by rw [hl]; exact List.mem_cons_self)

/-- A step without reset consumes one of the host's acts. -/
theorem step_host {s t : State} (hr : s.hostNow.reset = none) (h : step s = .next t) : t.host = s.host.tail := by
  rw [step_no_reset hr] at h
  exact (engine_keeps h).host.trans (afterHost_host s)

theorem Alike.run {s s' t : State} {n : Nat} (h : Alike s s') (hr : ∀ x ∈ s.host, x.reset = none)
    (ht : run n s = .next t) : ∃ t', run n s' = .next t' ∧ Alike t t' ∧ GrewAlike s s' t t' := by
  induction n generalizing s s' with
  | zero => cases ht; exact ⟨s', rfl, h, .silent rfl rfl rfl rfl⟩
  | succ n ih =>
    have hnow := hostNow_reset_none hr
    obtain ⟨u, hu, hn⟩ := run_succ_next ht
    obtain ⟨u', hu', ha, hg⟩ := h.step hnow u hu
    have hru : ∀ x ∈ u.host, x.reset = none := fun x hx =>
      hr x (List.mem_of_mem_tail (step_host hnow hu ▸ hx))
    obtain ⟨t', ht', hat, hgt⟩ := ih ha hru hn
    exact ⟨t', (run_succ hu' n).trans ht', hat, hg.trans hgt⟩

/-- Settles O60: two idle engines are alike, whatever they hold, and runs of engines that are alike mirror each
other. -/
theorem idleEngineHasNoMemory : Obligations.IdleEngineHasNoMemory := by
  intro s s' n t hs hs' htmr htmr' hc hc' hcfg hreq hhost hlink hrx hdraws hreset ht
  have hw : SameWorld s s' := ⟨hcfg, hs'.trans hs.symm, htmr'.trans htmr.symm, hc'.trans hc.symm, hreq, hhost, hlink,
    hrx, hdraws⟩
  obtain ⟨t', ht', ha, es, rs, he, he', hr, hr'⟩ := (hw.alike_of_idle hs).run hreset ht
  exact ⟨t', es, rs, ht', he, he', hr, hr', ha.seq⟩

end Sys2Proof.Machine
end

section
/-! PROOFS of the family 20_memory: the engine issues its events one after another (R58, R60). -/

namespace Sys2Proof.Machine

open Sys2Proof

/-- The second trace is the first, or the first with one event after it. -/
def GrowsByAtMostOne (es es' : List Event) : Prop := es' = es ∨ ∃ e, es' = es ++ [e]

theorem GrowsByAtMostOne.refl (es : List Event) : GrowsByAtMostOne es es := .inl rfl

theorem GrowsByAtMostOne.snoc (es : List Event) (e : Event) : GrowsByAtMostOne es (es ++ [e]) := .inr ⟨e, rfl⟩

/-- `delay` is one event; every other transaction puts its events in `SEQ`, for later steps (R8, R138). -/
theorem traceAfter_grows (i : Instr) (es : List Event) : GrowsByAtMostOne es (traceAfter i es) := by
  cases i
  case delay n => exact .snoc es (.delay n)
  all_goals exact .refl es

theorem exec_trace_grows {i : Instr} {s t : State} (h : exec i s = .next t) : GrowsByAtMostOne s.trace t.trace := by
  rcases request_or_not i with ⟨r, hr⟩ | hi
  · rcases exec_request_next_cases hr h with ⟨-, rfl⟩ | ⟨-, e, -, rfl⟩ | ⟨-, -, rfl⟩
    all_goals exact .refl _
  · obtain rfl := exec_transaction_next hi h
    exact traceAfter_grows i s.trace

theorem send_trace_grows (bs : BusState) (s : State) : GrowsByAtMostOne s.trace (s.send bs).trace := by
  rcases s.send_cases bs with ⟨-, hs⟩ | ⟨r, -, hs⟩ <;> rw [hs]
  · exact .snoc s.trace (.send bs)
  · exact .snoc s.trace (.sendFailed bs)

theorem recv_trace_grows (s : State) : GrowsByAtMostOne s.trace s.recv.trace := by
  rcases s.recv_cases with ⟨-, hs⟩ | ⟨r, -, hs⟩ <;> rw [hs]
  · exact .snoc s.trace (.recv s.answer)
  · exact .snoc s.trace .recvFailed

theorem runMicro_trace_grows {m : Micro} {s t : State} (h : runMicro m s = .next t) :
    GrowsByAtMostOne s.trace t.trace := by
  cases m with
  | run i | unit i => exact exec_trace_grows (i := i) h
  | statusTest => exact exec_trace_grows (i := decodeStatus s.byte) h
  | send bs => cases h; exact send_trace_grows bs s
  | recv =>
    obtain ⟨-, rfl⟩ := bfOnly_next h
    exact recv_trace_grows s
  | dataLoop =>
    cases h
    rw [dataLoop_eq_push]
    exact .refl s.trace
  | writeLow | readLow | keepRead | startData | byteSent | byteRead | finish => cases h; exact .refl s.trace

/-- Of the engine's moves only an instruction or a position of `SEQ` issues an event. -/
theorem engine_trace_grows {c : Bool} {s t : State} (h : engine c s = .next t) : GrowsByAtMostOne s.trace t.trace := by
  rcases engine_cases c s with ⟨-, he⟩ | ⟨-, -, -, he⟩ | ⟨-, -, r, -, he⟩ | ⟨-, -, -, he⟩ | ⟨-, m, k, -, -, he⟩ <;>
    rw [he] at h
  case inr.inr.inl =>
    obtain ⟨i, u, -, -, hu, rfl⟩ := accept_next h
    rw [State.raiseCancel_trace]
    exact exec_trace_grows (s := { s with req := none }) hu
  case inr.inr.inr.inr => exact runMicro_trace_grows (s := s.goto k) h
  all_goals cases h; exact .refl s.trace

/-- Settles O47: the host's input leaves the trace alone, and a move of the engine adds at most one event. -/
theorem traceGrowsByOneEvent : Obligations.TraceGrowsByOneEvent := by
  intro s t h hr
  rw [step_no_reset hr] at h
  have hgrows := engine_trace_grows h
  rwa [afterHost_trace] at hgrows

end Sys2Proof.Machine
end

section
/-! PROOFS of the family 30_encoding: decode and encode agree, byte by byte and request by request (R74 to R92). -/

namespace Sys2Proof

-- The decoder on the bytes of the formulas (R78 to R81, R74)

theorem decodeCmd_entryModeByte (l s : Bool) : decodeCmd (entryModeByte l s) = .ok (.cmdEntryMode l s) := by
  revert l s; decide

theorem decodeCmd_displayControlByte (d c b : Bool) :
    decodeCmd (displayControlByte d c b) = .ok (.cmdDisplayControl d c b) := by
  revert d c b; decide

theorem decodeCmd_setCgramByte (a : BitVec 6) : decodeCmd (setCgramByte a) = .ok (.cmdSetCgram a) := by
  revert a; decide

theorem decodeCmd_setDdramByte (a : BitVec 7) : decodeCmd (setDdramByte a) = .ok (.cmdSetDdram a) := by
  revert a; decide

theorem decodeStatus_append (busy : Bool) (g : BitVec 7) : decodeStatus (BitVec.ofBool busy ++ g) = .status busy g := by
  revert busy g; decide

-- The decoder on the requests of the host operations (R88, R89)

theorem decodeRequest_entryModeRequest (l s : Bool) :
    decodeRequest (entryModeRequest l s) = .ok (.opEntryMode l s) := by
  revert l s; decide

theorem decodeRequest_displayControlRequest (d c b : Bool) :
    decodeRequest (displayControlRequest d c b) = .ok (.opDisplayControl d c b) := by
  revert d c b; decide

theorem decodeRequest_reservedRequest (low : BitVec 3) :
    decodeRequest (reservedRequest low) = .ok (.opReserved low) := by
  revert low; decide

theorem decodeRequest_writeRequest (line : BitVec 1) (column : BitVec 6) (bytes : List Byte) :
    decodeRequest (writeRequest line column bytes) = .ok (.opWrite line column bytes) :=
  if_pos (c := bytes.length = bytes.length) rfl

/-- A bitmap whose length fits its four-bit port is read back. -/
theorem decodeRequest_defineCharRequest (code : BitVec 4) {bitmap : List Byte} (h : bitmap.length ≤ 15) :
    decodeRequest (defineCharRequest code bitmap) = .ok (.opDefineChar code bitmap) :=
  have hport : (BitVec.ofNat 4 bitmap.length).toNat = bitmap.length :=
    (BitVec.toNat_ofNat _ _).trans (Nat.mod_eq_of_lt (by omega))
  if_pos (c := bitmap.length = (BitVec.ofNat 4 bitmap.length).toNat) hport.symm

/-- Settles O1: the bytes and the requests with operands by the lemmas above, the others by computation. -/
theorem decodeOfEncodeIsTheInstruction : Obligations.DecodeOfEncodeIsTheInstruction := by
  intro cfg i w hwf h
  cases i <;> cases h
  case cmdEntryMode l s => exact decodeCmd_entryModeByte l s
  case cmdDisplayControl d c b => exact decodeCmd_displayControlByte d c b
  case cmdSetCgram a => exact decodeCmd_setCgramByte a
  case cmdSetDdram a => exact decodeCmd_setDdramByte a
  case status busy g => exact congrArg Except.ok (decodeStatus_append busy g)
  case opEntryMode l s => exact decodeRequest_entryModeRequest l s
  case opDisplayControl d c b => exact decodeRequest_displayControlRequest d c b
  case opWrite line column bytes => exact decodeRequest_writeRequest line column bytes
  case opDefineChar code bitmap => exact decodeRequest_defineCharRequest code (of_decide_eq_true hwf)
  case opReserved low => exact decodeRequest_reservedRequest low
  case cmdClear | cmdHome | cmdFunctionSet | data | initNibble3 | initNibble2 | opInit | opClear | opHome | opRead =>
    rfl

-- The command forms: a byte of a form is the byte its fields give (R75)

theorem entryModeByte_of_form {b : Byte} (h : b &&& 0xFC#8 = 0x04#8) :
    entryModeByte (b.getLsbD 1) (b.getLsbD 0) = b := by
  revert b; decide

theorem displayControlByte_of_form {b : Byte} (h : b &&& 0xF8#8 = 0x08#8) :
    displayControlByte (b.getLsbD 2) (b.getLsbD 1) (b.getLsbD 0) = b := by
  revert b; decide

theorem setCgramByte_of_form {b : Byte} (h : b &&& 0xC0#8 = 0x40#8) : setCgramByte (b.extractLsb' 0 6) = b := by
  revert b; decide

theorem setDdramByte_of_form {b : Byte} (h : b &&& 0x80#8 = 0x80#8) : setDdramByte (b.extractLsb' 0 7) = b := by
  revert b; decide

theorem eq_of_full_mask {b m : Byte} (h : b &&& 0xFF#8 = m) : m = b :=
  h.symm.trans (BitVec.and_allOnes (x := b))

/-- What a command byte decodes to encodes to that byte. -/
theorem encode_of_decodeCmd {b : Byte} {i : Instr} (h : decodeCmd b = .ok i) : encode i = some (.cmd b) := by
  have hcmd : ∀ m : Byte, m = b → some (Wire.cmd m) = some (.cmd b) := fun _ hm => hm ▸ rfl
  unfold decodeCmd at h
  split_ifs at h with hclear hhome hentry hdisplay hfunction hcgram hddram
  all_goals cases h
  · exact hcmd _ (eq_of_full_mask hclear)
  · exact hcmd _ (eq_of_full_mask hhome)
  · exact hcmd _ (entryModeByte_of_form hentry)
  · exact hcmd _ (displayControlByte_of_form hdisplay)
  · exact hcmd _ (eq_of_full_mask hfunction)
  · exact hcmd _ (setCgramByte_of_form hcgram)
  · exact hcmd _ (setDdramByte_of_form hddram)

/-- The bytes no form of R75 covers, all 256 looked at. -/
theorem decodeCmd_rejects_iff (b : Byte) :
    decodeCmd b = .error .noSuchCommand ↔
      b.toNat = 0x00 ∨ b.toNat = 0x03 ∨ (0x10 ≤ b.toNat ∧ b.toNat ≤ 0x1F) ∨
        (0x20 ≤ b.toNat ∧ b.toNat ≤ 0x3F ∧ b.toNat ≠ 0x28) := by
  revert b; decide

/-- Settles O2: the forms are read back, and the bytes without a form are those of R91. -/
theorem commandByteHasOneMeaning : Obligations.CommandByteHasOneMeaning :=
  ⟨fun _ _ => encode_of_decodeCmd, decodeCmd_rejects_iff⟩

/-- Settles O3: each word by computation of the decoder. -/
theorem wordsOfTheSpecDecode : Obligations.WordsOfTheSpecDecode :=
  ⟨rfl, rfl, rfl, rfl, rfl, rfl, rfl, rfl, rfl, rfl, rfl, rfl, rfl⟩

end Sys2Proof
end

section
/-! PROOFS of the family 30_encoding: in a quiet world a transaction runs to the state its rule gives (R100 to R103,
R120, R121, R130, R132), so each command byte, data byte and single nibble is issued as its encoding says. -/

namespace Sys2Proof.Machine

open Sys2Proof

-- The events of one nibble

theorem tail_tail_tail_tail_eq_drop {α : Type} (l : List α) : l.tail.tail.tail.tail = l.drop 4 := by
  simp only [← List.drop_one, List.drop_drop]

theorem afterEvents_write4Trace (s : State) (cfg : Config) (rs : Bool) (n : Nibble) :
    s.afterEvents (write4Trace cfg rs n) =
      { s.emit (write4Trace cfg rs n) with link := s.link.drop 4 } := by
  simp [write4Trace, State.afterEvents, State.sendOk, State.emit, busAfter, tail_tail_tail_tail_eq_drop]

theorem afterEvents_read4Trace {s : State} {v : Byte} {rest : List Byte} (hx : s.rx = v :: rest) (cfg : Config)
    (rs : Bool) :
    s.afterEvents (read4Trace cfg rs v) =
      { s.emit (read4Trace cfg rs v) with
        byte := collectNibble s.phase s.byte (recvNibble v)
        rx := rest
        link := s.link.drop 4 } := by
  simp [read4Trace, State.afterEvents, State.sendOk, State.recvOk, State.answer, State.drawsAfterAnswer, State.emit,
    busAfter, hx, tail_tail_tail_tail_eq_drop]

/-- A single nibble is one Enable pulse (R83). -/
theorem pulses_write4Trace (cfg : Config) (rs : Bool) (n : Nibble) : pulses (write4Trace cfg rs n) = 1 := by
  cases hv : cfg.variant <;> simp [pulses, write4Trace, sends, busLit, hv]

/-- The byte R103 assembles is the one the two collected nibbles make (R87). -/
theorem assembled_eq_collected (v : Byte × Byte) (old : Byte) :
    collectNibble .lo (collectNibble .hi old (recvNibble v.1)) (recvNibble v.2) = assembled v := by
  have hnibble : ∀ x : Byte, (recvNibble x).setWidth 8 = x &&& 0xF#8 := by decide
  show joinNibbles (hiNibble (joinNibbles (recvNibble v.1) 0#4)) (recvNibble v.2) = assembled v
  rw [hiNibble_joinNibbles, joinNibbles, hnibble, hnibble, assembled]

-- The states inside a nibble pair

/-- Inside a pair: `BYTE` and `PHASE` as R102 and R103 set them. -/
def State.inPair (p : Phase) (b : Byte) (s : State) : State := { s with byte := b, phase := p }

/-- Between the nibbles of a `read8`: the high one is collected, `rest` and the second answer are still to come. -/
def State.halfRead (rs : Bool) (v : Byte × Byte) (rest : List Byte) (p : Phase) (s : State) : State :=
  { s.emit (read4Trace s.cfg rs v.1) with
    byte := collectNibble .hi s.byte (recvNibble v.1)
    phase := p
    rx := v.2 :: rest }

section
variable {s : State} (hq : Quiet s)
include hq

-- One nibble

theorem Quiet.runs_write4Steps (rs : Bool) (n : Nibble) :
    Reaches (s.push (write4Steps s.cfg rs n)) (s.emit (write4Trace s.cfg rs n)) := by
  have ⟨hhost, hlink, _, htmr⟩ := hq
  have hrun := (run_issues _ _ (s.push (write4Steps s.cfg rs n)) s.seq s.rx (write4_issues s.cfg rs n) hhost htmr rfl
    rfl fun h => absurd rfl h).1 (by rw [State.push_link, hlink, carried_nil])
  have hdrop : s.link.drop 4 = s.link := by rw [hlink]; rfl
  rwa [afterEvents_write4Trace, State.push_link, hdrop] at hrun

theorem Quiet.runs_write4 (rs : Bool) (n : Nibble) :
    Reaches (s.push [.run (.write4 rs n)]) (s.emit (write4Trace s.cfg rs n)) :=
  quiet_run hq rfl (Quiet.runs_write4Steps hq rs n)

theorem Quiet.runs_read4 (hbf : s.cfg.variant = .bf) {v : Byte} {rest : List Byte} (hx : s.rx = v :: rest)
    (rs : Bool) :
    Reaches (s.push [.run (.read4 rs)])
      { s.emit (read4Trace s.cfg rs v) with byte := collectNibble s.phase s.byte (recvNibble v), rx := rest } := by
  have ⟨hhost, hlink, _, htmr⟩ := hq
  have hrun := (run_issues _ _ (s.push (read4Steps s.cfg rs)) s.seq rest (read4_issues s.cfg rs v) hhost htmr rfl
    hx fun _ => hbf).1 (by rw [State.push_link, hlink, carried_nil])
  have hdrop : s.link.drop 4 = s.link := by rw [hlink]; rfl
  rw [afterEvents_read4Trace (s := s.push (read4Steps s.cfg rs)) hx, State.push_link, hdrop] at hrun
  exact quiet_run hq (exec_read4_bf hbf) hrun

/-- The low nibble of a `write8` follows the high one (R102). -/
theorem Quiet.runs_write8 (rs : Bool) (b : Byte) :
    Reaches (s.push [.unit (.write8 rs b)]) (s.afterWrite8 rs b) := by
  have hhigh : Reaches ((s.inPair .hi b).push [.run (.write4 rs (hiNibble b)), .writeLow rs])
      (((s.emit (write4Trace s.cfg rs (hiNibble b))).inPair .hi b).push [.writeLow rs]) :=
    Quiet.runs_write4 (s := (s.inPair .hi b).push [.writeLow rs]) hq rs (hiNibble b)
  have hlow : Reaches (((s.emit (write4Trace s.cfg rs (hiNibble b))).inPair .lo b).push
      [.run (.write4 rs (loNibble b))]) (s.afterWrite8 rs b) := by
    have hresult : (s.emit (write8Trace s.cfg rs b)).inPair .lo b = s.afterWrite8 rs b := rfl
    rw [← hresult, write8Trace, ← hiNibble_eq, ← loNibble_eq, ← emit_emit]
    exact Quiet.runs_write4 (s := (s.emit (write4Trace s.cfg rs (hiNibble b))).inPair .lo b) hq rs (loNibble b)
  have hturn : Reaches (((s.emit (write4Trace s.cfg rs (hiNibble b))).inPair .hi b).push [.writeLow rs])
      (s.afterWrite8 rs b) :=
    quiet_run (s := (s.emit (write4Trace s.cfg rs (hiNibble b))).inPair .hi b) hq rfl hlow
  exact quiet_run hq rfl (hhigh.trans hturn)

/-- The low nibble of a `read8` follows the high one, and `BYTE` joins the two (R103). -/
theorem Quiet.runs_read8 (hbf : s.cfg.variant = .bf) {v : Byte × Byte} {rest : List Byte}
    (hx : s.rx = v.1 :: v.2 :: rest) (rs : Bool) :
    Reaches (s.push [.unit (.read8 rs)]) (s.afterRead8 rs v) := by
  have hhigh : Reaches ((s.inPair .hi s.byte).push [.run (.read4 rs), .readLow rs])
      ((s.halfRead rs v rest .hi).push [.readLow rs]) :=
    Quiet.runs_read4 (s := (s.inPair .hi s.byte).push [.readLow rs]) hq hbf hx rs
  have hlow : Reaches ((s.halfRead rs v rest .lo).push [.run (.read4 rs)]) (s.afterRead8 rs v) := by
    have hrun := Quiet.runs_read4 (s := s.halfRead rs v rest .lo) hq hbf (v := v.2) (rest := rest) rfl rs
    have hdrop : s.rx.drop 2 = rest := by rw [hx]; rfl
    rw [State.afterRead8, read8Trace, ← emit_emit, hdrop, ← assembled_eq_collected v s.byte]
    exact hrun
  have hturn : Reaches ((s.halfRead rs v rest .hi).push [.readLow rs]) (s.afterRead8 rs v) :=
    quiet_run (s := s.halfRead rs v rest .hi) hq rfl hlow
  exact quiet_run hq (exec_read8_bf hbf) (hhigh.trans hturn)

-- The waits (R130, R132, R138)

/-- A delay that is a unit is its event, and the ticks pass (R138). -/
theorem Quiet.runs_delay (n : Nat) : Reaches (s.push [.unit (.delay n)]) (s.emit [.delay n]) := by
  have ⟨hhost, _, _, htmr⟩ := hq
  have hstopped : ({ s.startDelay n with tmr := 0 } : State) = s.emit [.delay n] := by
    rw [← htmr]; rfl
  rw [← hstopped]
  exact quiet_run hq rfl (reaches_ticks (s.startDelay n) hhost)

/-- A poll reads the status byte; while its bit 7 is 1 it comes back to the busy-wait (R132). -/
theorem Quiet.runs_poll (hbf : s.cfg.variant = .bf) {v : Byte × Byte} {rest : List Byte}
    (hx : s.rx = v.1 :: v.2 :: rest) :
    Reaches (s.push [.run .busyWait])
      (if (assembled v).getLsbD 7 then State.push [.run .busyWait] { s.afterRead8 IR v with bf := true }
        else { s.afterRead8 IR v with bf := false }) := by
  have hread : Reaches (s.push [.unit (.read8 IR), .statusTest]) ((s.afterRead8 IR v).push [.statusTest]) :=
    Quiet.runs_read8 (s := s.push [.statusTest]) hq hbf hx IR
  have htest := exec_status_bf (s := s.afterRead8 IR v) (busy := (assembled v).getLsbD 7)
    (g := (assembled v).extractLsb' 0 7) hbf
  exact quiet_run hq (exec_busyWait_bf hbf)
    (hread.trans (quiet_run (s := s.afterRead8 IR v) (m := .statusTest) hq htest (.refl _)))

end

/-- The state after a busy-wait whose polls are `w`, the answers `rest` still to come (R132). -/
def State.afterPolls (w : Polls) (rest : List Byte) (s : State) : State :=
  { s.emit (busyWaitTrace s.cfg w) with byte := assembled w.last, phase := .lo, bf := false, rx := rest }

/-- A busy-wait ends at the first poll that answers free, by induction on the ones before it (R132). -/
theorem Quiet.runs_busyWait {s : State} {w : Polls} {rest : List Byte} (hq : Quiet s) (hbf : s.cfg.variant = .bf)
    (hw : w.Valid) (hx : s.rx = pairBytes w.all ++ rest) :
    Reaches (s.push [.run .busyWait]) (s.afterPolls w rest) := by
  obtain ⟨busy, last⟩ := w
  obtain ⟨hbusy, hlast⟩ := hw
  induction busy generalizing s with
  | nil =>
    have hpoll := Quiet.runs_poll hq hbf hx
    have hdrop : s.rx.drop 2 = rest := by rw [hx]; rfl
    rw [hlast, if_neg Bool.false_ne_true, State.afterRead8, hdrop] at hpoll
    exact hpoll
  | cons v busy ih =>
    have hpoll := Quiet.runs_poll hq hbf hx
    rw [hbusy v List.mem_cons_self, if_pos rfl] at hpoll
    have hdrop : s.rx.drop 2 = pairBytes (Polls.all ⟨busy, last⟩) ++ rest := by rw [hx]; rfl
    have hnext := ih (s := { s.afterRead8 IR v with bf := true }) hq hbf hdrop
      (fun x hx => hbusy x (List.mem_cons_of_mem v hx)) hlast
    have htrace : busyWaitTrace s.cfg ⟨v :: busy, last⟩ =
        read8Trace s.cfg false v ++ busyWaitTrace s.cfg ⟨busy, last⟩ := rfl
    rw [State.afterPolls, htrace, ← emit_emit]
    exact hpoll.trans hnext

/-- In BF a policy wait leaves what its polls leave (R130). -/
theorem afterWait_bf {s : State} (h : s.cfg.variant = .bf) (w : Polls) :
    s.afterWait w = s.afterPolls w (s.rx.drop (pairBytes w.all).length) := by
  simp only [State.afterWait, State.afterPolls, policyWaitTrace, h]

/-- In FD it leaves one delay (R130). -/
theorem afterWait_fd {s : State} (h : s.cfg.variant = .fd) (w : Polls) :
    s.afterWait w = s.emit [.delay s.cfg.tEXEC] := by
  simp only [State.afterWait, policyWaitTrace, h]

section
variable {s : State} (hq : Quiet s) {w : Polls} {rest : List Byte} (hw : WaitsOk s.cfg [w])
  (hx : s.rx = waitBytes s.cfg w ++ rest)
include hq hw hx

/-- The policy wait polls in BF and waits `T_EXEC` in FD (R130). -/
theorem Quiet.runs_policyWait : Reaches (s.push [.run .policyWait]) (s.afterWait w) := by
  cases hv : s.cfg.variant with
  | bf =>
    have hpolls : s.rx = pairBytes w.all ++ rest := by rw [hx, waitBytes, hv]
    have hdrop : s.rx.drop (pairBytes w.all).length = rest := by rw [hpolls, List.drop_left]
    rw [afterWait_bf hv, hdrop]
    exact quiet_run hq (exec_policyWait_bf hv) (Quiet.runs_busyWait hq hv (hw hv w List.mem_cons_self) hpolls)
  | fd =>
    rw [afterWait_fd hv]
    exact quiet_run hq (exec_policyWait_fd hv) (Quiet.runs_delay hq s.cfg.tEXEC)

/-- `X_WR`, then `X_WAIT` (R120, R121, R125). -/
theorem Quiet.runs_transactionSteps (rs : Bool) (b : Byte) :
    Reaches (s.push (transactionSteps rs b)) ((s.afterWrite8 rs b).afterWait w) :=
  (Quiet.runs_write8 (s := s.push [.run .policyWait]) hq rs b).trans
    (Quiet.runs_policyWait (s := s.afterWrite8 rs b) hq hw hx)

theorem Quiet.runs_issueCommand (b : Byte) : Reaches (issueCommand b s) ((s.afterWrite8 IR b).afterWait w) :=
  quiet_run hq rfl (Quiet.runs_transactionSteps hq hw hx IR b)

end

/-- A single nibble is a stand-alone `write4` (R83). -/
theorem Quiet.runs_issueNibble {s : State} (hq : Quiet s) (n : Nibble) :
    Reaches (issueNibble n s) (s.emit (write4Trace s.cfg IR n)) :=
  quiet_run hq rfl (Quiet.runs_write4Steps hq IR n)

/-- Settles O17: each of the seven is its byte, and all seven are issued alike. -/
theorem commandBytesAreIssuedByDoCmd : Obligations.CommandBytesAreIssuedByDoCmd := by
  intro s w rest hq hw hx i b hform
  have hissued : Reaches (issueCommand b s) ((s.afterWrite8 IR b).afterWait w) :=
    Quiet.runs_issueCommand hq hw hx b
  rcases hform with ⟨rfl, rfl⟩ | ⟨rfl, rfl⟩ | ⟨l, r, rfl, rfl⟩ | ⟨d, c, k, rfl, rfl⟩ | ⟨rfl, rfl⟩ | ⟨a, rfl, rfl⟩ |
    ⟨a, rfl, rfl⟩
  all_goals exact ⟨rfl, _, rfl, hissued⟩

/-- Settles O18: `DATA` is `doData`, which is one transaction on the data register. -/
theorem dataBytesAreIssuedByDoData : Obligations.DataBytesAreIssuedByDoData := by
  intro s b w rest hq hw hx
  have hdoData : Reaches (s.push [.run (.doData b)]) ((s.afterWrite8 DR b).afterWait w) :=
    quiet_run hq rfl (Quiet.runs_transactionSteps hq hw hx DR b)
  exact ⟨_, rfl, hdoData⟩

/-- Settles O19: each of the two nibbles is issued alone, and its seven events hold one pulse. -/
theorem singleNibblesAreOneWrite4 : Obligations.SingleNibblesAreOneWrite4 := fun s hq =>
  ⟨⟨_, rfl, Quiet.runs_issueNibble hq 0x3#4⟩, ⟨_, rfl, Quiet.runs_issueNibble hq 0x2#4⟩,
    pulses_write4Trace s.cfg false 0x3#4, pulses_write4Trace s.cfg false 0x2#4⟩

/-- Settles O13: the branch of `exec` for the status byte, in each variant. -/
theorem statusByteSetsBusyFlag : Obligations.StatusByteSetsBusyFlag := by
  intro s g
  refine ⟨fun hbf => ⟨exec_status_bf hbf, exec_status_bf hbf⟩, fun hfd busy => ?_⟩
  obtain ⟨-, -, -, -, hstatus⟩ := exec_absent_fd hfd
  exact hstatus busy g

end Sys2Proof.Machine
end

section
/-! PROOFS of the family 30_encoding: what acceptance refuses (U3), and that `SEQ` holds legal positions only, so that
no byte and no single nibble is emitted but those listed (R91, R92). -/

namespace Sys2Proof.Machine

open Sys2Proof

/-- Settles O43: acceptance decodes the request, and both ways a request can fail to fit are met there. -/
theorem acceptanceRefusesWhatThePortsExclude : Obligations.AcceptanceRefusesWhatThePortsExclude := by
  intro s r hreset hseq htmr hreq
  have hstep : step s = accept s.hostNow.cancel r s.afterHost := by
    rw [step_no_reset hreset]
    exact engine_accepts (by rwa [afterHost_tmr]) (by rwa [afterHost_seq]) (by rwa [afterHost_req]) _
  rw [hstep]
  refine ⟨fun hmisfit => accept_rejects (decode_misfit hmisfit) _ _, fun hfits hlong => ?_, fun hfits hshort => ?_⟩
  · obtain ⟨i, hdecode, hwf⟩ := decode_fits (cfg := s.cfg) hfits
    exact accept_refuses hdecode (fun h => hwf.1 (afterHost_cfg s ▸ h) hlong) _
  · obtain ⟨i, hdecode, hwf⟩ := decode_fits (cfg := s.cfg) hfits
    exact accept_next_of_wf hdecode (by rw [afterHost_cfg]; exact hwf.2 hshort)

-- What the positions put in front of SEQ may be

/-- The expansion of a legal position, run or begun as a unit, holds legal positions (R91, R92, R131, R140). -/
theorem legal_expansion {cfg : Config} {i : Instr} (h : runLegal cfg i = true ∨ unitLegal cfg i = true) :
    ∀ x ∈ expansion cfg i, x.legal cfg = true := by
  obtain ⟨hentry, hdisplay, hcgram, hddram⟩ := emittedCommand_formulas
  cases i
  case cmdClear | cmdHome | cmdFunctionSet => exact List.forall_mem_singleton.2 rfl
  case cmdEntryMode l r => exact List.forall_mem_singleton.2 (hentry l r)
  case cmdDisplayControl d c b => exact List.forall_mem_singleton.2 (hdisplay d c b)
  case cmdSetCgram a =>
    refine List.forall_mem_singleton.2 (hcgram a ?_)
    simpa [runLegal, unitLegal] using h
  case cmdSetDdram a => exact List.forall_mem_singleton.2 (hddram a)
  case data | initNibble3 | initNibble2 => exact List.forall_mem_singleton.2 rfl
  case write4 rs n => exact legal_write4Steps cfg rs n
  case read4 rs => exact legal_read4Steps rs (by simpa [runLegal, unitLegal] using h)
  case policyWait =>
    have hexec := le_maxDelay cfg (n := cfg.tEXEC) (by simp)
    by_cases hv : cfg.variant = .bf <;> simp [expansion, Micro.legal, runLegal, unitLegal, isBf, hv, hexec]
  case write8 | doData => simp [expansion, transactionSteps, Micro.legal, runLegal, unitLegal]
  case doCmd | read8 | readData | busyWait =>
    simpa [expansion, transactionSteps, Micro.legal, runLegal, unitLegal] using h
  case delay => exact fun _ hx => absurd hx List.not_mem_nil
  case status | opInit | opClear | opHome | opEntryMode | opDisplayControl | opWrite | opRead | opDefineChar |
      opReserved =>
    simp [runLegal, unitLegal] at h

theorem legal_expansion_status {cfg : Config} (h : isBf cfg = true) (b : Byte) :
    ∀ x ∈ expansion cfg (decodeStatus b), x.legal cfg = true := by
  rw [decodeStatus_eq]
  cases busyFlag b <;> simp [expansion, Micro.legal, runLegal, h]

theorem legal_clearSteps (cfg : Config) : ∀ x ∈ clearSteps cfg, x.legal cfg = true := by
  have hclear := le_maxDelay cfg (n := cfg.tCLEAR) (by simp)
  cases hv : cfg.variant <;> simp [clearSteps, hv, Micro.legal, runLegal, unitLegal, hclear]

/-- The step lists of the host operations hold legal positions (R150, R160 to R166). -/
theorem legal_operationSteps (cfg : Config) (i : Instr) : ∀ x ∈ operationSteps cfg i, x.legal cfg = true := by
  cases i
  case opInit =>
    have hinit1 := le_maxDelay cfg (n := cfg.tINIT1) (by simp)
    have hinit2 := le_maxDelay cfg (n := cfg.tINIT2) (by simp)
    have hinit3 := le_maxDelay cfg (n := cfg.tINIT3) (by simp)
    simp only [operationSteps, initSteps, List.forall_mem_append]
    refine ⟨⟨?_, legal_clearSteps cfg⟩, ?_⟩ <;> simp [Micro.legal, runLegal, unitLegal, hinit1, hinit2, hinit3]
  case opClear => exact legal_clearSteps cfg
  case opDefineChar code bitmap => simp [operationSteps, Micro.legal, runLegal, cgramAddress_low]
  all_goals simp [operationSteps, Micro.legal, runLegal]

/-- In FD no `READ` is in progress (R170). -/
def NoReadInFd (s : State) : Prop := s.cfg.variant = .fd → s.op ≠ 0x6#4

theorem legal_loopPositions {s : State} (h : NoReadInFd s) : ∀ x ∈ loopPositions s, x.legal s.cfg = true := by
  unfold loopPositions
  split_ifs with hend hread
  · simp
  · have hbf : isBf s.cfg = true := by
      cases hv : s.cfg.variant with
      | bf => exact isBf_iff.2 hv
      | fd => exact absurd hread (h hv)
    simp [Micro.legal, runLegal, hbf]
  · split <;> simp [Micro.legal, runLegal]

/-- A request for `READ` meets its argument fault in FD (R170). -/
theorem argumentFault_read_fd {cfg : Config} {i : Instr} {r : Request} (hr : encode i = some (.request r))
    (hread : r.opsel = 0x6#4) (hfd : cfg.variant = .fd) : argumentFault cfg i ≠ none := by
  have hreserved : ∀ low : BitVec 3, (reservedRequest low).opsel ≠ 0x6#4 := by decide
  cases i <;> cases hr
  case opRead => simp [argumentFault, hfd]
  case opReserved low => exact absurd hread (hreserved low)
  all_goals exact absurd hread (of_decide_eq_false rfl)

-- The invariant of O57: a part of Inv that stands by itself

/-- The engine is idle, or every position of `SEQ` is legal and no `READ` is in progress in FD. -/
def LegalSeq (s : State) : Prop := s.seq = [] ∨ (NoReadInFd s ∧ ∀ x ∈ s.seq, x.legal s.cfg = true)

theorem Inv.legalSeq {s : State} (h : Inv s) : LegalSeq s := by
  by_cases hs : s.seq = []
  · exact .inl hs
  · exact .inr ⟨fun hfd hread => hs (h.noRead hfd hread), h.legal⟩

/-- Legal positions in front of legal ones, the configuration and the operation kept. -/
theorem legalSeq_of_push {s t : State} {ms : List Micro} (hread : NoReadInFd s)
    (hk : ∀ x ∈ s.seq, x.legal s.cfg = true) (hms : ∀ x ∈ ms, x.legal s.cfg = true) (hcfg : t.cfg = s.cfg)
    (hop : t.op = s.op) (hseq : t.seq = ms ++ s.seq) : LegalSeq t := by
  refine .inr ⟨by rwa [NoReadInFd, hcfg, hop], fun x hx => ?_⟩
  rw [hseq, List.mem_append] at hx
  rw [hcfg]
  exact hx.elim (hms x) (hk x)

theorem runMicro_keeps_legalSeq {m : Micro} {s t : State} (hread : NoReadInFd s)
    (hk : ∀ x ∈ s.seq, x.legal s.cfg = true) (hm : m.legal s.cfg = true) (h : runMicro m s = .next t) : LegalSeq t := by
  have hsame : ∀ {u : State}, u.cfg = s.cfg → u.op = s.op → u.seq = s.seq → LegalSeq u :=
    legalSeq_of_push (ms := []) hread hk (fun _ hx => absurd hx List.not_mem_nil)
  cases m with
  | run i =>
    obtain rfl := exec_transaction_next (runsNoRequest_of_legal hm i (.inl rfl)) h
    exact legalSeq_of_push hread hk (legal_expansion (.inl hm)) rfl rfl rfl
  | unit i =>
    obtain rfl := exec_transaction_next (runsNoRequest_of_legal hm i (.inr rfl)) h
    exact legalSeq_of_push hread hk (legal_expansion (.inr hm)) rfl rfl rfl
  | statusTest =>
    obtain rfl := exec_transaction_next (decodeStatus_no_request s.byte) h
    exact legalSeq_of_push hread hk (legal_expansion_status hm s.byte) rfl rfl rfl
  | send bs =>
    cases h
    rcases s.send_cases bs with ⟨-, hs⟩ | ⟨r, -, hs⟩ <;> rw [hs]
    · exact hsame rfl rfl rfl
    · exact .inl rfl
  | recv =>
    obtain ⟨-, rfl⟩ := bfOnly_next h
    rcases s.recv_cases with ⟨-, hs⟩ | ⟨r, -, hs⟩ <;> rw [hs]
    · exact hsame rfl rfl rfl
    · exact .inl rfl
  | writeLow rs =>
    cases h
    exact legalSeq_of_push (ms := [.run (.write4 rs (loNibble s.byte))]) hread hk (by simp [Micro.legal, runLegal])
      rfl rfl rfl
  | readLow rs =>
    cases h
    exact legalSeq_of_push (ms := [.run (.read4 rs)]) hread hk (by simpa [Micro.legal, runLegal] using hm) rfl rfl rfl
  | dataLoop =>
    cases h
    rw [dataLoop_eq_push]
    exact legalSeq_of_push hread hk (legal_loopPositions hread) rfl rfl rfl
  | keepRead | startData | byteSent | byteRead => cases h; exact hsame rfl rfl rfl
  | finish => cases h; exact .inl rfl

theorem accept_keeps_legalSeq {c : Bool} {r : Request} {s t : State} (hs : s.seq = []) (h : accept c r s = .next t) :
    LegalSeq t := by
  obtain ⟨i, u, hdecode, -, hu, rfl⟩ := accept_next h
  obtain ⟨r', hr'⟩ := decode_request_encodes hdecode
  rcases exec_request_next_cases hr' hu with ⟨hbusy, -⟩ | ⟨-, e, -, rfl⟩ | ⟨-, hnone, rfl⟩
  · exact absurd hs hbusy
  · exact .inl rfl
  · refine .inr ⟨fun hfd hread => argumentFault_read_fd hr' hread hfd hnone, fun x hx => ?_⟩
    rcases List.mem_append.1 hx with hx | hx
    · exact legal_operationSteps s.cfg i x hx
    · rw [List.mem_singleton.1 hx]; rfl

theorem engine_keeps_legalSeq {c : Bool} {s t : State} (hs : LegalSeq s) (h : engine c s = .next t) : LegalSeq t := by
  rcases engine_cases c s with ⟨-, he⟩ | ⟨-, -, -, he⟩ | ⟨-, hidle, r, -, he⟩ | ⟨-, -, -, he⟩ | ⟨-, m, k, hmk, -, he⟩ <;>
    rw [he] at h
  · cases h; exact hs
  · cases h; exact hs
  · exact accept_keeps_legalSeq hidle h
  · cases h; exact .inl rfl
  · rcases hs with hs | ⟨hread, hlegal⟩
    · rw [hs] at hmk; cases hmk
    · rw [hmk, List.forall_mem_cons] at hlegal
      exact runMicro_keeps_legalSeq (s := s.goto k) hread hlegal.2 hlegal.1 h

theorem step_keeps_legalSeq {s t : State} (hs : LegalSeq s) (h : step s = .next t) : LegalSeq t := by
  rcases step_cases s with ⟨cfg, -, he⟩ | ⟨-, he⟩ <;> rw [he] at h
  · cases h; exact .inl rfl
  · exact engine_keeps_legalSeq (by simpa [LegalSeq, NoReadInFd] using hs) h

/-- What every step keeps holds along every run. -/
theorem run_keeps {P : State → Prop} (hstep : ∀ {s t}, P s → step s = .next t → P t) {n : Nat} {s t : State}
    (hs : P s) (h : run n s = .next t) : P t := by
  induction n generalizing s with
  | zero => cases h; exact hs
  | succ n ih =>
    obtain ⟨u, hu, hrun⟩ := run_succ_next h
    exact ih (hstep hs hu) hrun

/-- The bytes the engine emits to IR are none of those R91 lists. -/
theorem not_excluded_of_emittedCommand {b : Byte} (h : emittedCommand b = true) :
    b.toNat ≠ 0x00 ∧ b.toNat ≠ 0x03 ∧ ¬(0x10 ≤ b.toNat ∧ b.toNat ≤ 0x1F) ∧
      ¬(0x20 ≤ b.toNat ∧ b.toNat ≤ 0x3F ∧ b.toNat ≠ 0x28) ∧
      ¬(0x40 ≤ b.toNat ∧ b.toNat ≤ 0x7F ∧ b.toNat % 8 ≠ 0) := by
  revert b; decide

/-- Settles O57: `LegalSeq` holds along the run, and a legal unit is one of those R91 and R92 allow. -/
theorem onlyListedCommandsAreEmitted : Obligations.OnlyListedCommandsAreEmitted := by
  intro s t n hinv hrun
  have hhead : ∀ {i : Instr} {k : List Micro}, t.seq = .unit i :: k → unitLegal t.cfg i = true := by
    intro i k hk
    rcases run_keeps step_keeps_legalSeq hinv.legalSeq hrun with hidle | ⟨-, hlegal⟩
    · rw [hidle] at hk; cases hk
    · exact hlegal (.unit i) (by rw [hk]; exact List.mem_cons_self)
  refine ⟨fun b k hk => not_excluded_of_emittedCommand (hhead hk), fun rs x k hk => ?_⟩
  simpa [unitLegal] using hhead hk

end Sys2Proof.Machine
end

section
/-! PROOFS of the family 40_nibble_codec: the codec's primitives over a transport that may fail (R100 to R103, R182). -/

namespace Sys2Proof.Machine

open Sys2Proof

-- What the transport carries of two traces joined

/-- The calls of the transport in a trace: each uses up one completion code (R182). -/
def calls : List Event → Nat
  | [] => 0
  | .send _ :: es | .recv _ :: es => calls es + 1
  | _ :: es => calls es

/-- A trace carried in full leaves its codes used up, and what follows it meets the rest. -/
theorem carried_append_of_none {codes : List (Option Report)} {es : List Event} (h : (carried codes es).2 = none)
    (es' : List Event) :
    carried codes (es ++ es') =
      (es ++ (carried (codes.drop (calls es)) es').1, (carried (codes.drop (calls es)) es').2) := by
  induction es generalizing codes with
  | nil => rfl
  | cons e es ih =>
    cases e with
    | send bs | recv v =>
      cases hc : codes.headD none with
      | none =>
        simp only [carried, hc] at h
        simp only [List.cons_append, carried, hc, ih h, calls, List.drop_tail]
      | some r => simp only [carried, hc, reduceCtorEq] at h
    | delay n | sendFailed bs | recvFailed =>
      simp only [carried] at h
      simp only [List.cons_append, carried, ih h, calls]

/-- Nothing follows a failed call. -/
theorem carried_append_of_some {codes : List (Option Report)} {es : List Event} {r : Report}
    (h : (carried codes es).2 = some r) (es' : List Event) : carried codes (es ++ es') = carried codes es := by
  induction es generalizing codes with
  | nil => cases h
  | cons e es ih =>
    cases e with
    | send bs | recv v =>
      cases hc : codes.headD none with
      | none =>
        simp only [carried, hc] at h
        simp only [List.cons_append, carried, hc, ih h]
      | some r => simp only [List.cons_append, carried, hc]
    | delay n | sendFailed bs | recvFailed =>
      simp only [carried] at h
      simp only [List.cons_append, carried, ih h]

-- Events issued over a transport that may fail

/-- From `t` the engine issues the events `es`, counted from `s`: it reaches `u` if the transport carries them all, and
the failing call ends the operation if it does not (R7, R182). -/
def Issued (s t u : State) (es : List Event) : Prop :=
  ((carried s.link es).2 = none → Reaches t u) ∧
  ∀ r, (carried s.link es).2 = some r → ∃ v, Reaches t v ∧ Failed s v (carried s.link es).1 r

/-- A move without an event may come before. -/
theorem Issued.of_step {s t t' u : State} {es : List Event} (hstep : step t = .next t') (h : Issued s t' u es) :
    Issued s t u es :=
  ⟨fun hn => .step hstep (h.1 hn), fun r hr =>
    have ⟨v, hreach, hfailed⟩ := h.2 r hr
    ⟨v, .step hstep hreach, hfailed⟩⟩

/-- Two lists of events, one after the other: the second is issued only if the first was carried in full. -/
theorem Issued.append {s t u w : State} {es es' : List Event} (h : Issued s t u es) (h' : Issued u u w es')
    (hcfg : u.cfg = s.cfg) (hlink : u.link = s.link.drop (calls es)) (htrace : u.trace = s.trace ++ es)
    (hresponses : u.responses = s.responses) : Issued s t w (es ++ es') := by
  obtain ⟨hcarried, hfails⟩ := h
  obtain ⟨hcarried', hfails'⟩ := h'
  rw [hlink] at hcarried' hfails'
  cases hc : (carried s.link es).2 with
  | none =>
    rw [Issued, carried_append_of_none hc]
    refine ⟨fun hn => (hcarried hc).trans (hcarried' hn), fun r hr => ?_⟩
    obtain ⟨v, hreach, vcfg, vseq, vtmr, vstatus, vcancel, vtrace, vresponses⟩ := hfails' r hr
    refine ⟨v, (hcarried hc).trans hreach, vcfg.trans hcfg, vseq, vtmr, vstatus, vcancel, ?_, ?_⟩
    · rw [vtrace, htrace, List.append_assoc]
    · rw [vresponses, hresponses]
  | some r =>
    rw [Issued, carried_append_of_some hc]
    exact ⟨fun hn => absurd (hc.symm.trans hn) (by simp), hfails⟩

-- One nibble

/-- The position in front of `SEQ` is run, if no cancellation point stands before it (R186). -/
theorem step_push {s : State} {m : Micro} (hhost : s.host = []) (htmr : s.tmr = 0)
    (hm : ∀ k, atCancellationPoint (m :: k) = false) : step (s.push [m]) = runMicro m s :=
  step_quiet_nonunit (s := s.push [m]) hhost htmr rfl (hm s.seq)

/-- The state after the events of one nibble, whose four calls used up four completion codes (R100, R101). -/
def State.afterNibble (es : List Event) (s : State) : State := { s.emit es with link := s.link.drop 4 }

theorem afterNibble_afterNibble (s : State) (es es' : List Event) :
    (s.afterNibble es).afterNibble es' = { s.emit (es ++ es') with link := s.link.drop 8 } := by
  rw [← emit_emit, State.afterNibble, State.afterNibble, List.drop_drop]
  rfl

section
variable {s : State} (hhost : s.host = []) (htmr : s.tmr = 0)
include hhost htmr

theorem issued_write4Steps (rs : Bool) (n : Nibble) :
    Issued s (s.push (write4Steps s.cfg rs n)) (s.afterNibble (write4Trace s.cfg rs n)) (write4Trace s.cfg rs n) := by
  have hrun := run_issues _ _ (s.push (write4Steps s.cfg rs n)) s.seq s.rx (write4_issues s.cfg rs n) hhost htmr rfl
    rfl fun h => absurd rfl h
  rwa [afterEvents_write4Trace] at hrun

theorem issued_write4 (rs : Bool) (n : Nibble) :
    Issued s (s.push [.run (.write4 rs n)]) (s.afterNibble (write4Trace s.cfg rs n)) (write4Trace s.cfg rs n) :=
  .of_step (step_push (m := .run (.write4 rs n)) hhost htmr fun _ => rfl)
    (issued_write4Steps hhost htmr rs n)

variable (hbf : s.cfg.variant = .bf) {v : Byte} {rest : List Byte} (hx : s.rx = v :: rest)
include hbf hx

theorem issued_read4Steps (rs : Bool) :
    Issued s (s.push (read4Steps s.cfg rs))
      { s.afterNibble (read4Trace s.cfg rs v) with
        byte := collectNibble s.phase s.byte (recvNibble v), rx := rest }
      (read4Trace s.cfg rs v) := by
  have hrun := run_issues _ _ (s.push (read4Steps s.cfg rs)) s.seq rest (read4_issues s.cfg rs v) hhost htmr rfl
    hx fun _ => hbf
  rwa [afterEvents_read4Trace (s := s.push (read4Steps s.cfg rs)) hx] at hrun

theorem issued_read4 (rs : Bool) :
    Issued s (s.push [.run (.read4 rs)])
      { s.afterNibble (read4Trace s.cfg rs v) with
        byte := collectNibble s.phase s.byte (recvNibble v), rx := rest }
      (read4Trace s.cfg rs v) :=
  .of_step ((step_push (m := .run (.read4 rs)) hhost htmr fun _ => rfl).trans (exec_read4_bf hbf))
    (issued_read4Steps hhost htmr hbf hx rs)

end

/-- The nibble collected, by the formulas of R101 and R103: bits 7:4 of the byte received are discarded. -/
theorem collectNibble_recvNibble (p : Phase) (old v : Byte) :
    collectNibble p old (recvNibble v) =
      match p with
      | .hi => (v &&& 0xF#8) <<< 4
      | .lo => (old &&& 0xF0#8) ||| (v &&& 0xF#8) := by
  have hhi : ∀ x : Byte, joinNibbles (recvNibble x) 0#4 = (x &&& 0xF#8) <<< 4 := by decide
  have hkept : ∀ x : Byte, (hiNibble x).setWidth 8 <<< 4 = x &&& 0xF0#8 := by decide
  have hlo : ∀ x : Byte, (recvNibble x).setWidth 8 = x &&& 0xF#8 := by decide
  cases p with
  | hi => exact hhi v
  | lo => exact congrArg₂ (· ||| ·) (hkept old) (hlo v)

/-- Settles O4: the seven positions are run one by one. -/
theorem write4IssuesItsSevenEvents : Obligations.Write4IssuesItsSevenEvents := fun _ rs n hhost htmr =>
  ⟨_, rfl, issued_write4Steps hhost htmr rs n⟩

/-- Settles O5: the eight positions are run one by one, and the nibble goes to `BYTE`. -/
theorem read4IssuesItsEightEvents : Obligations.Read4IssuesItsEightEvents := by
  refine ⟨fun s rs v rest hbf hhost htmr hx => ⟨_, exec_read4_bf hbf, ?_⟩,
    fun s rs hfd => (exec_absent_fd hfd).1 rs⟩
  have hissued := issued_read4Steps hhost htmr hbf hx rs
  rw [collectNibble_recvNibble] at hissued
  exact hissued

-- Two nibbles

/-- `halfRead`, the four completion codes of the high nibble used up. -/
def State.halfIssued (rs : Bool) (v : Byte × Byte) (rest : List Byte) (p : Phase) (s : State) : State :=
  { s.halfRead rs v rest p with link := s.link.drop 4 }

theorem calls_write4Trace (cfg : Config) (rs : Bool) (n : Nibble) : calls (write4Trace cfg rs n) = 4 := rfl

theorem calls_read4Trace (cfg : Config) (rs : Bool) (v : Byte) : calls (read4Trace cfg rs v) = 4 := rfl

section
variable {s : State} (hhost : s.host = []) (htmr : s.tmr = 0)
include hhost htmr

/-- The low nibble of a `write8` follows the high one with one move between them, which issues no event (R102). -/
theorem issued_write8 (rs : Bool) (b : Byte) :
    Issued s ((s.inPair .hi b).push [.run (.write4 rs (hiNibble b)), .writeLow rs])
      { s.afterWrite8 rs b with link := s.link.drop 8 } (write8Trace s.cfg rs b) := by
  have hhigh := issued_write4 (s := (s.inPair .hi b).push [.writeLow rs]) hhost htmr rs (hiNibble b)
  have hlow := issued_write4 (s := (s.afterNibble (write4Trace s.cfg rs (hiNibble b))).inPair .lo b) hhost htmr rs
    (loNibble b)
  have hturn := step_push (s := (s.afterNibble (write4Trace s.cfg rs (hiNibble b))).inPair .hi b) (m := .writeLow rs)
    hhost htmr fun _ => rfl
  have hresult : { s.afterWrite8 rs b with link := s.link.drop 8 } =
      ((s.afterNibble (write4Trace s.cfg rs (hiNibble b))).afterNibble
        (write4Trace s.cfg rs (loNibble b))).inPair .lo b := by
    rw [afterNibble_afterNibble, hiNibble_eq, loNibble_eq]
    rfl
  rw [hresult, write8Trace, ← hiNibble_eq, ← loNibble_eq]
  exact hhigh.append (hlow.of_step hturn) rfl (by rw [calls_write4Trace]; rfl) rfl rfl

/-- The low nibble of a `read8` follows the high one, and `BYTE` joins the two (R103). -/
theorem issued_read8 (hbf : s.cfg.variant = .bf) {v : Byte × Byte} {rest : List Byte}
    (hx : s.rx = v.1 :: v.2 :: rest) (rs : Bool) :
    Issued s ((s.inPair .hi s.byte).push [.run (.read4 rs), .readLow rs])
      { s.afterRead8 rs v with link := s.link.drop 8 } (read8Trace s.cfg rs v) := by
  have hhigh := issued_read4 (s := (s.inPair .hi s.byte).push [.readLow rs]) hhost htmr hbf hx rs
  have hlow := issued_read4 (s := s.halfIssued rs v rest .lo) (v := v.2) (rest := rest) hhost htmr hbf rfl rs
  have hturn := step_push (s := s.halfIssued rs v rest .hi) (m := .readLow rs) hhost htmr fun _ => rfl
  have hdrop : s.rx.drop 2 = rest := by rw [hx]; rfl
  have hresult : { s.afterRead8 rs v with link := s.link.drop 8 } =
      { (s.afterNibble (read4Trace s.cfg rs v.1)).afterNibble (read4Trace s.cfg rs v.2) with
        byte := assembled v, phase := .lo, rx := rest } := by
    rw [afterNibble_afterNibble, ← hdrop]
    rfl
  rw [hresult, read8Trace, ← assembled_eq_collected v s.byte]
  exact hhigh.append (hlow.of_step hturn) rfl (by rw [calls_read4Trace]; rfl) rfl rfl

end

/-- Settles O6: two `write4`, the low nibble after the high one. -/
theorem write8IsTwoWrite4HighNibbleFirst : Obligations.Write8IsTwoWrite4HighNibbleFirst := fun _ rs b hhost htmr =>
  ⟨_, rfl, issued_write8 hhost htmr rs b⟩

/-- Settles O7: two `read4`, the low nibble after the high one. -/
theorem read8IsTwoRead4HighNibbleFirst : Obligations.Read8IsTwoRead4HighNibbleFirst :=
  ⟨fun _ rs _ _ hbf hhost htmr hx => ⟨_, exec_read8_bf hbf, issued_read8 hhost htmr hbf hx rs⟩,
    fun _ rs hfd => (exec_absent_fd hfd).2.1 rs⟩

end Sys2Proof.Machine
end

section
/-! PROOFS of the family 40_nibble_codec: everything a position of `SEQ` can do, as one inversion lemma (R26, R185). -/

namespace Sys2Proof.Machine

open Sys2Proof

-- Positions outside a nibble

/-- A position outside every critical section, and not the completion (R185). -/
def Micro.Outside (m : Micro) : Prop := m.inCodec = false ∧ m ≠ .finish

theorem midNibble_of_not_inCodec {m : Micro} (h : m.inCodec = false) : m.midNibble = false := by
  cases m with
  | send | recv => cases h
  | run i =>
    cases i
    case delay => cases h
    all_goals rfl
  | _ => rfl

theorem sent_of_not_midNibble {m : Micro} (h : m.midNibble = false) : m.sent = none := by
  cases m with
  | send => cases h
  | _ => rfl

theorem settles_cons_iff {m : Micro} (h : m.midNibble = false) {b : BusState} {k : List Micro} :
    Settles b (m :: k) ↔ Released b ∧ ∀ b', Released b' → Settles b' k := by
  simp only [Settles, sent_of_not_midNibble h, h]

/-- A position that sends nothing leaves the rest to settle from the same bus. -/
theorem settles_rest {m : Micro} (h : m.sent = none) {b : BusState} {k : List Micro} (hs : Settles b (m :: k)) :
    Settles b k := by
  cases hm : m.midNibble with
  | true => simpa only [Settles, h, hm] using hs
  | false =>
    have ⟨hb, hk⟩ := (settles_cons_iff hm).1 hs
    exact hk b hb

theorem settles_of_not_midNibble {ms k : List Micro} (h : ∀ x ∈ ms, x.midNibble = false) {b : BusState}
    (hb : Released b) (hk : ∀ b', Released b' → Settles b' k) : Settles b (ms ++ k) :=
  settles_outside (fun x hx => ⟨sent_of_not_midNibble (h x hx), h x hx⟩) hb hk

/-- `ms` may stand in `SEQ` where `m` stood: the critical sections stay in front, and a released bus is left
released (R104, R185). -/
structure Expands (m : Micro) (ms : List Micro) : Prop where
  notFinish : m ≠ .finish
  midNibble : m.midNibble = false
  shape : (∀ x ∈ ms, x.inCodec = true) ∨ (m.inCodec = false ∧ ∀ x ∈ ms, x.Outside)
  settles : ∀ {b k}, Released b → (∀ b', Released b' → Settles b' k) → Settles b (ms ++ k)

theorem Expands.outside {m : Micro} {ms : List Micro} (hm : m.Outside) (hms : ∀ x ∈ ms, x.Outside) :
    Expands m ms where
  notFinish := hm.2
  midNibble := midNibble_of_not_inCodec hm.1
  shape := .inr ⟨hm.1, hms⟩
  settles := settles_of_not_midNibble fun x hx => midNibble_of_not_inCodec (hms x hx).1

/-- A position of a nibble pair gives way to others (R102, R103). -/
theorem Expands.codec {m : Micro} {ms : List Micro} (hm : m ≠ .finish) (hmid : m.midNibble = false)
    (hms : ∀ x ∈ ms, x.inCodec = true ∧ x.midNibble = false) : Expands m ms where
  notFinish := hm
  midNibble := hmid
  shape := .inl fun x hx => (hms x hx).1
  settles := settles_of_not_midNibble fun x hx => (hms x hx).2

theorem midNibble_of_cancellationPoint {m : Micro} {k : List Micro} (h : atCancellationPoint (m :: k) = true) :
    m.midNibble = false := by
  cases m with
  | unit i => rfl
  | _ => cases h

/-- Where a position may give way to others, one outside every critical section may (R185). -/
theorem Expands.of_outside {m m' : Micro} {ms : List Micro} (h : Expands m ms) (hm' : m'.Outside) :
    Expands m' ms where
  notFinish := hm'.2
  midNibble := midNibble_of_not_inCodec hm'.1
  shape := h.shape.imp_right fun ⟨_, hms⟩ => ⟨hm'.1, hms⟩
  settles := h.settles

/-- What a transaction other than a delay puts in front of `SEQ` may stand in its place (R100 to R103, R120 to R132). -/
theorem expands_expansion (cfg : Config) {i : Instr} (hi : ∀ n, i ≠ .delay n) :
    Expands (.run i) (expansion cfg i) := by
  cases i
  case delay n => exact absurd rfl (hi n)
  case write4 rs n =>
    exact ⟨nofun, rfl, .inl (by simp [expansion, write4Steps, Micro.inCodec]), settles_write4 cfg rs n⟩
  case read4 rs =>
    exact ⟨nofun, rfl, .inl (by simp [expansion, read4Steps, Micro.inCodec]), settles_read4 cfg rs⟩
  case write8 | read8 => exact .codec nofun rfl (by simp [expansion, Micro.inCodec, Micro.midNibble])
  case policyWait | status =>
    refine .outside ⟨rfl, nofun⟩ ?_
    unfold expansion
    split_ifs <;> simp [Micro.Outside, Micro.inCodec]
  all_goals
    -- at most three positions, none of them in a critical section
    exact .outside ⟨rfl, nofun⟩ (by simp [expansion, transactionSteps, Micro.Outside, Micro.inCodec])

theorem outside_loopPositions (s : State) : ∀ x ∈ loopPositions s, x.Outside := by
  unfold loopPositions
  split_ifs
  · simp
  · simp [Micro.Outside, Micro.inCodec]
  · split <;> simp [Micro.Outside, Micro.inCodec]

theorem outside_operationSteps (cfg : Config) (i : Instr) : ∀ x ∈ operationSteps cfg i, x.Outside := by
  cases i
  case opInit | opClear =>
    cases hv : cfg.variant <;> simp [operationSteps, initSteps, clearSteps, hv, Micro.Outside, Micro.inCodec]
  all_goals simp [operationSteps, Micro.Outside, Micro.inCodec]

-- What a position can do

/-- A move without an event: the trace, `BUS` and the timer are as they were. -/
structure Silent (s t : State) : Prop where
  cfg : t.cfg = s.cfg
  bus : t.bus = s.bus
  tmr : t.tmr = s.tmr
  trace : t.trace = s.trace

/-- Everything a position that runs no host operation can do, `SEQ` being what stands after it: give way to other
positions without an event, issue its event, fail at it, or complete the operation. -/
inductive Move (m : Micro) (s : State) : State → Prop where
  | expand {t : State} {ms : List Micro} (hm : Expands m ms) (hseq : t.seq = ms ++ s.seq) (hsilent : Silent s t) :
    Move m s t
  | delay (n : Nat) (hm : m = .run (.delay n) ∨ m = .unit (.delay n)) : Move m s (s.startDelay n)
  | send (bs : BusState) (hm : m = .send bs) : Move m s (s.sendOk bs)
  | sendFails (bs : BusState) (r : Report) (hm : m = .send bs) : Move m s (s.sendFail bs r)
  | recv (hm : m = .recv) (hbf : s.cfg.variant = .bf) : Move m s s.recvOk
  | recvFails (r : Report) (hm : m = .recv) (hbf : s.cfg.variant = .bf) : Move m s (s.recvFail r)
  | finish (hm : m = .finish) : Move m s s.complete

theorem silent_transaction {i : Instr} (hi : ∀ n, i ≠ .delay n) (s : State) : Silent s (transaction i s) := by
  cases i
  case delay n => exact absurd rfl (hi n)
  all_goals exact ⟨rfl, rfl, rfl, rfl⟩

theorem move_of_exec {m : Micro} {i : Instr} {s t : State} (hm : m = .run i ∨ m = .unit i)
    (hi : ∀ r, encode i ≠ some (.request r)) (h : exec i s = .next t) : Move m s t := by
  obtain rfl := exec_transaction_next hi h
  by_cases hdelay : ∃ n, i = .delay n
  · obtain ⟨n, rfl⟩ := hdelay
    exact .delay n hm
  · rw [not_exists] at hdelay
    have hexpands := expands_expansion s.cfg hdelay
    rcases hm with rfl | rfl
    · exact .expand hexpands rfl (silent_transaction hdelay s)
    · exact .expand (hexpands.of_outside ⟨rfl, nofun⟩) rfl (silent_transaction hdelay s)

/-- The inversion lemma of `runMicro`, for positions that run no host operation. -/
theorem move_of_runMicro {m : Micro} {s t : State} (hm : RunsNoRequest m) (h : runMicro m s = .next t) :
    Move m s t := by
  cases m with
  | run i => exact move_of_exec (.inl rfl) (hm i (.inl rfl)) h
  | unit i => exact move_of_exec (.inr rfl) (hm i (.inr rfl)) h
  | statusTest =>
    obtain rfl := exec_transaction_next (decodeStatus_no_request s.byte) h
    have hnot : ∀ n, decodeStatus s.byte ≠ .delay n := nofun
    exact .expand ((expands_expansion s.cfg hnot).of_outside ⟨rfl, nofun⟩) rfl (silent_transaction hnot s)
  | send bs =>
    cases h
    rcases s.send_cases bs with ⟨-, hs⟩ | ⟨r, -, hs⟩ <;> rw [hs]
    · exact .send bs rfl
    · exact .sendFails bs r rfl
  | recv =>
    obtain ⟨hbf, rfl⟩ := bfOnly_next h
    rcases s.recv_cases with ⟨-, hs⟩ | ⟨r, -, hs⟩ <;> rw [hs]
    · exact .recv rfl hbf
    · exact .recvFails r rfl hbf
  | writeLow rs =>
    cases h
    exact .expand (ms := [.run (.write4 rs (loNibble s.byte))])
      (.codec nofun rfl (List.forall_mem_singleton.2 ⟨rfl, rfl⟩)) rfl ⟨rfl, rfl, rfl, rfl⟩
  | readLow rs =>
    cases h
    exact .expand (ms := [.run (.read4 rs)])
      (.codec nofun rfl (List.forall_mem_singleton.2 ⟨rfl, rfl⟩)) rfl ⟨rfl, rfl, rfl, rfl⟩
  | dataLoop =>
    cases h
    rw [dataLoop_eq_push]
    exact .expand (.outside ⟨rfl, nofun⟩ (outside_loopPositions s)) rfl ⟨rfl, rfl, rfl, rfl⟩
  | keepRead | startData | byteSent | byteRead =>
    cases h
    exact .expand (ms := []) (.outside ⟨rfl, nofun⟩ nofun) rfl ⟨rfl, rfl, rfl, rfl⟩
  | finish => cases h; exact .finish rfl

end Sys2Proof.Machine
end

section
/-! PROOFS of the family 40_nibble_codec: every step keeps the invariant, so that an idle bus is released and every
Enable pulse is framed (R104, R105). -/

namespace Sys2Proof.Machine

open Sys2Proof

-- The trace and BUS

theorem not_noFailure_sendFailed (es : List Event) (bs : BusState) : ¬NoFailure (es ++ [.sendFailed bs]) := fun hn =>
  (hn (.sendFailed bs) List.mem_concat_self).2 bs rfl

theorem not_noFailure_recvFailed (es : List Event) : ¬NoFailure (es ++ [.recvFailed]) := fun hn =>
  (hn .recvFailed List.mem_concat_self).1 rfl

/-- The events are the variant's, `BUS` follows them, and as long as none failed they are framed (R20, R21, R105,
R131). -/
structure Traced (cfg : Config) (bus : BusState) (es : List Event) : Prop where
  rw : bus.rw.isSome = isBf cfg
  events : ∀ e ∈ es, e.allowed cfg = true
  bus : NoFailure es → bus = busAfter (resetBus cfg) es
  edges : NoFailure es → List.IsChain EdgeOk (resetBus cfg :: sends es)

theorem traced_reset (cfg : Config) : Traced cfg (resetBus cfg) [] where
  rw := rwField_isSome cfg.variant false
  events := nofun
  bus _ := rfl
  edges _ := List.isChain_singleton _

section
variable {cfg : Config} {bus : BusState} {es : List Event} (h : Traced cfg bus es)
include h

theorem Traced.events_snoc {e : Event} (he : e.allowed cfg = true) : ∀ x ∈ es ++ [e], x.allowed cfg = true := by
  rw [List.forall_mem_append]
  exact ⟨h.events, List.forall_mem_singleton.2 he⟩

/-- A BusState sent is the next link of the chain, `BUS` being the last one (R105). -/
theorem Traced.send {bs : BusState} (hrw : bs.rw.isSome = isBf cfg) (hedge : NoFailure es → EdgeOk bus bs) :
    Traced cfg bs (es ++ [.send bs]) where
  rw := hrw
  events := h.events_snoc (by simpa [Event.allowed] using hrw)
  bus _ := by rw [busAfter_append]; rfl
  edges hn := by
    have hn := noFailure_left hn
    have hlast : (resetBus cfg :: sends es).getLast? = some bus := by
      rw [List.getLast?_eq_some_getLast (List.cons_ne_nil _ _), ← busAfter_eq_getLast, ← h.bus hn]
    rw [sends_append, ← List.cons_append]
    refine List.isChain_append.2 ⟨h.edges hn, List.isChain_singleton _, fun x hx y hy => ?_⟩
    cases hlast.symm.trans hx
    cases hy
    exact hedge hn

/-- An event that is no completed `send` leaves `BUS` as it is (R21). -/
theorem Traced.other {e : Event} (he : e.allowed cfg = true) (hbus : ∀ b, busAfter b [e] = b)
    (hsends : sends [e] = []) : Traced cfg bus (es ++ [e]) where
  rw := h.rw
  events := h.events_snoc he
  bus hn := by rw [busAfter_append, hbus]; exact h.bus (noFailure_left hn)
  edges hn := by rw [sends_append, hsends, List.append_nil]; exact h.edges (noFailure_left hn)

/-- After a failed `send` nothing more is said of `BUS` but its `rw` field (R182, U5). -/
theorem Traced.sendFailed {bs bus' : BusState} (hrw : bs.rw.isSome = isBf cfg) (hrw' : bus'.rw.isSome = isBf cfg) :
    Traced cfg bus' (es ++ [.sendFailed bs]) where
  rw := hrw'
  events := h.events_snoc (by simpa [Event.allowed] using hrw)
  bus hn := absurd hn (not_noFailure_sendFailed es bs)
  edges hn := absurd hn (not_noFailure_sendFailed es bs)

end

-- The part of the invariant that a move of the engine works on

/-- The clauses of `Inv` about the shape of `SEQ`, the timer, the trace and the bus. The others are about the
configuration, which only a reset changes, and about the legality of the positions, which is `LegalSeq`. -/
structure Sequenced (s : State) : Prop where
  shape : SeqShape s.seq
  timer : s.tmr < 2 ^ timerWidth s.cfg
  idle : s.seq = [] → s.tmr = 0 ∧ s.cancelPend = false
  traced : Traced s.cfg s.bus s.trace
  settles : NoFailure s.trace → Settles s.bus s.seq

/-- The invariant in the parts that are kept for different reasons. -/
theorem inv_iff (s : State) :
    Inv s ↔
      s.cfg.wf = true ∧ (∀ x ∈ s.host, ∀ c, x.reset = some c → c.wf = true) ∧ LegalSeq s ∧ Sequenced s := by
  constructor
  · exact fun h => ⟨h.cfg, h.resets, h.legalSeq,
      { shape := h.shape, timer := h.timer, idle := h.idle, settles := h.settles
        traced := ⟨h.rw, h.events, h.bus, h.edges⟩ }⟩
  · rintro ⟨hcfg, hresets, hlegal, ⟨hshape, htimer, hidle, ⟨hrw, hevents, hbus, hedges⟩, hsettles⟩⟩
    refine ⟨hcfg, hresets, hrw, hshape, ?_, ?_, htimer, hidle, hevents, hbus, hsettles, hedges⟩
    · rcases hlegal with hs | ⟨-, hlegal⟩
      · exact hs ▸ nofun
      · exact hlegal
    · exact fun hfd hread => hlegal.resolve_right fun ⟨hno, _⟩ => hno hfd hread

/-- An operation that has ended, or none that has begun (R26, R104). -/
theorem sequenced_of_idle {s : State} (hseq : s.seq = []) (htmr : s.tmr = 0) (hcancel : s.cancelPend = false)
    (htraced : Traced s.cfg s.bus s.trace) (hreleased : NoFailure s.trace → Released s.bus) : Sequenced s where
  shape := .inl hseq
  timer := by rw [htmr]; exact Nat.two_pow_pos _
  idle _ := ⟨htmr, hcancel⟩
  traced := htraced
  settles hn := by rw [hseq]; exact hreleased hn

section
variable {s : State} (h : Sequenced s)
include h

theorem Sequenced.released_of_idle (hs : s.seq = []) (hn : NoFailure s.trace) : Released s.bus := by
  have hsettles := h.settles hn
  rwa [hs] at hsettles

theorem Sequenced.tick : Sequenced s.tick :=
  { h with
    timer := lt_of_le_of_lt (Nat.sub_le s.tmr 1) h.timer
    idle := fun hs => ⟨by rw [State.tick_tmr, (h.idle hs).1], (h.idle hs).2⟩ }

/-- The host's input reaches `CANCEL_PEND` of a busy engine only (R184). -/
theorem Sequenced.afterHost : Sequenced s.afterHost := by
  rw [afterHost_eq]
  refine { h with idle := fun hs => ⟨(h.idle hs).1, ?_⟩ }
  have hseq : s.seq = [] := hs
  simp [(h.idle hseq).2, State.busy, hseq]

variable {m : Micro} {k : List Micro} (hs : s.seq = m :: k)
include hs

theorem Sequenced.shape_cons : SeqShape (m :: k) := hs ▸ h.shape

theorem Sequenced.settles_cons (hn : NoFailure s.trace) : Settles s.bus (m :: k) := hs ▸ h.settles hn

theorem Sequenced.released (hm : m.midNibble = false) (hn : NoFailure s.trace) : Released s.bus :=
  ((settles_cons_iff hm).1 (h.settles_cons hs hn)).1

/-- Behind a position that is not the completion the completion stands (R26). -/
theorem Sequenced.shape_rest (hm : m ≠ .finish) : SeqShape k ∧ k ≠ [] :=
  seqShape_expand (ms := []) (h.shape_cons hs) hm (.inl nofun)

/-- A position gives way to others without an event. -/
theorem Sequenced.expand {t : State} {ms : List Micro} (hm : Expands m ms) (hseq : t.seq = ms ++ k)
    (hsilent : Silent (s.goto k) t) : Sequenced t := by
  obtain ⟨hcfg, hbus, htmr, htrace⟩ := hsilent
  have ⟨hshape, hk⟩ := seqShape_expand (h.shape_cons hs) hm.notFinish hm.shape
  refine ⟨?_, ?_, ?_, ?_, ?_⟩
  · rwa [hseq]
  · rw [htmr, hcfg]; exact h.timer
  · rw [hseq]; exact fun hnil => absurd (List.append_eq_nil_iff.1 hnil).2 hk
  · rw [hcfg, hbus, htrace]; exact h.traced
  · rw [hbus, htrace, hseq]
    intro hn
    have ⟨hreleased, hrest⟩ := (settles_cons_iff hm.midNibble).1 (h.settles_cons hs hn)
    exact hm.settles hreleased hrest

/-- A delay is an event and starts the timer, which is wide enough for it (R138, R140). -/
theorem Sequenced.delay {n : Nat} (hm : m = .run (.delay n) ∨ m = .unit (.delay n)) (hn : n ≤ s.cfg.maxDelay) :
    Sequenced ((s.goto k).startDelay n) := by
  have hm' : m ≠ .finish ∧ m.sent = none := by rcases hm with rfl | rfl <;> exact ⟨nofun, rfl⟩
  obtain ⟨hfinish, hsent⟩ := hm'
  have ⟨hshape, hk⟩ := h.shape_rest hs hfinish
  exact
    { shape := hshape
      timer := ticksFor_lt hn
      idle := fun hnil => absurd hnil hk
      traced := h.traced.other (e := .delay n) (decide_eq_true hn) (fun _ => rfl) rfl
      settles := fun hno => settles_rest hsent (h.settles_cons hs (noFailure_left hno)) }

end

section
variable {s : State} (h : Sequenced s) {k : List Micro}
include h

/-- A `send` takes `BUS` one link of the chain on (R7, R21, R105). -/
theorem Sequenced.sendOk {bs : BusState} (hs : s.seq = .send bs :: k) (hrw : bs.rw.isSome = isBf s.cfg) :
    Sequenced ((s.goto k).sendOk bs) := by
  have ⟨hshape, hk⟩ := h.shape_rest hs nofun
  have hedge : NoFailure s.trace → EdgeOk s.bus bs ∧ Settles bs k := fun hn => h.settles_cons hs hn
  exact
    { shape := hshape
      timer := h.timer
      idle := fun hnil => absurd hnil hk
      traced := h.traced.send hrw fun hn => (hedge hn).1
      settles := fun hn => (hedge (noFailure_left hn)).2 }

theorem Sequenced.recvOk (hs : s.seq = .recv :: k) (hbf : s.cfg.variant = .bf) : Sequenced (s.goto k).recvOk := by
  have ⟨hshape, hk⟩ := h.shape_rest hs nofun
  exact
    { shape := hshape
      timer := h.timer
      idle := fun hnil => absurd hnil hk
      traced := h.traced.other (e := .recv (s.goto k).answer) (isBf_iff.2 hbf) (fun _ => rfl) rfl
      settles := fun hn => settles_rest (m := .recv) rfl (h.settles_cons hs (noFailure_left hn)) }

end

/-- Each kind of move keeps what it works on; where one ends the operation the bus is released, unless it failed (R104,
R182). -/
theorem runMicro_keeps_sequenced {m : Micro} {k : List Micro} {s t : State} (h : Sequenced s) (hs : s.seq = m :: k)
    (htmr : s.tmr = 0) (hlegal : m.legal s.cfg = true) (hrun : runMicro m (s.goto k) = .next t) : Sequenced t := by
  cases move_of_runMicro (runsNoRequest_of_legal hlegal) hrun with
  | expand hm hseq hsilent => exact h.expand hs hm hseq hsilent
  | delay n hm =>
    refine h.delay hs hm ?_
    rcases hm with rfl | rfl <;> exact of_decide_eq_true hlegal
  | send bs hm =>
    subst hm
    exact h.sendOk hs (eq_of_beq hlegal)
  | sendFails bs r hm =>
    subst hm
    exact sequenced_of_idle rfl htmr rfl
      (h.traced.sendFailed (eq_of_beq hlegal) (rwField_isSome _ _))
      fun hn => absurd hn (not_noFailure_sendFailed s.trace bs)
  | recv hm hbf =>
    subst hm
    exact h.recvOk hs hbf
  | recvFails r hm hbf =>
    exact sequenced_of_idle rfl htmr rfl
      (h.traced.other (e := .recvFailed) (isBf_iff.2 hbf) (fun _ => rfl) rfl)
      fun hn => absurd hn (not_noFailure_recvFailed s.trace)
  | finish hm =>
    subst hm
    exact sequenced_of_idle rfl htmr rfl h.traced (h.released hs rfl)

/-- A request turned away leaves the engine idle, and an accepted one begins outside every critical section (R191). -/
theorem accept_keeps_sequenced {c : Bool} {r : Request} {s t : State} (h : Sequenced s) (hs : s.seq = [])
    (hrun : accept c r s = .next t) : Sequenced t := by
  obtain ⟨i, u, hdecode, -, hu, rfl⟩ := accept_next hrun
  obtain ⟨r', hr'⟩ := decode_request_encodes hdecode
  rcases exec_request_next_cases hr' hu with ⟨hbusy, -⟩ | ⟨-, e, -, rfl⟩ | ⟨-, -, rfl⟩
  · exact absurd hs hbusy
  · exact sequenced_of_idle rfl (h.idle hs).1 (by simp [State.busy]) h.traced (h.released_of_idle hs)
  · have houtside := outside_operationSteps s.cfg i
    exact
      { shape := .inr ⟨[], operationSteps s.cfg i, rfl, nofun, houtside⟩
        timer := h.timer
        idle := fun hnil => absurd (List.append_eq_nil_iff.1 hnil).2 (List.cons_ne_nil _ _)
        traced := h.traced
        settles := fun hn => settles_of_not_midNibble (fun x hx => midNibble_of_not_inCodec (houtside x hx).1)
          (h.released_of_idle hs hn) fun b' hb' => ⟨hb', fun _ hb'' => hb''⟩ }

/-- A cancel is taken before a unit only, where the bus is released (R104, R186). -/
theorem engine_keeps_sequenced {c : Bool} {s t : State} (h : Sequenced s) (hlegal : LegalSeq s)
    (hrun : engine c s = .next t) : Sequenced t := by
  rcases engine_cases c s with ⟨-, he⟩ | ⟨-, -, -, he⟩ | ⟨-, hidle, r, -, he⟩ | ⟨htmr, -, hpoint, he⟩ |
    ⟨htmr, m, k, hmk, -, he⟩ <;> rw [he] at hrun
  · cases hrun; exact h.tick
  · cases hrun; exact h
  · exact accept_keeps_sequenced h hidle hrun
  · cases hrun
    cases hseq : s.seq with
    | nil => rw [hseq] at hpoint; cases hpoint
    | cons m k =>
      rw [hseq] at hpoint
      exact sequenced_of_idle rfl htmr rfl h.traced (h.released hseq (midNibble_of_cancellationPoint hpoint))
  · rcases hlegal with hs | ⟨-, hlegal⟩
    · rw [hs] at hmk; cases hmk
    · exact runMicro_keeps_sequenced h hmk htmr (hlegal m (by rw [hmk]; exact List.mem_cons_self)) hrun

/-- The host resets by one of its own acts (R210). -/
theorem hostNow_mem_of_reset {s : State} {cfg : Config} (h : s.hostNow.reset = some cfg) : s.hostNow ∈ s.host := by
  unfold State.hostNow at h ⊢
  cases hhost : s.host with
  | nil => rw [hhost] at h; cases h
  | cons x xs => exact List.mem_cons_self

/-- Settles O52: a reset starts the invariant anew, and any other step is a move of the engine, which keeps each of its
parts. -/
theorem everyStepKeepsTheInvariant : Obligations.EveryStepKeepsTheInvariant := by
  intro s t hinv hstep
  obtain ⟨hcfg, hresets, hlegal, hsequenced⟩ := (inv_iff s).1 hinv
  have hresets' : ∀ x ∈ s.host.tail, ∀ c, x.reset = some c → c.wf = true := fun x hx =>
    hresets x (List.mem_of_mem_tail hx)
  refine (inv_iff t).2 ?_
  rcases step_cases s with ⟨cfg, hreset, he⟩ | ⟨hnone, he⟩
  · rw [he] at hstep
    cases hstep
    have hwf : cfg.wf = true := hresets s.hostNow (hostNow_mem_of_reset hreset) cfg hreset
    exact ⟨hwf, hresets', .inl rfl,
      sequenced_of_idle rfl rfl rfl (traced_reset cfg) fun _ => ⟨rfl, rfl⟩⟩
  · have hkeeps := configurationIsConstant s t hstep hnone
    refine ⟨hkeeps ▸ hcfg, ?_, step_keeps_legalSeq hlegal hstep, ?_⟩
    · rw [step_host hnone hstep]; exact hresets'
    · rw [he] at hstep
      exact engine_keeps_sequenced hsequenced.afterHost (by simpa [LegalSeq, NoReadInFd] using hlegal) hstep

theorem run_keeps_inv {n : Nat} {s t : State} (hs : Inv s) (h : run n s = .next t) : Inv t :=
  run_keeps (everyStepKeepsTheInvariant _ _) hs h

/-- Settles O54: the invariant holds along the run, and an empty `SEQ` settles from a released bus only. -/
theorem idleBusIsReleased : Obligations.IdleBusIsReleased := by
  intro s t n hinv hrun hidle hn
  have hsettles := (run_keeps_inv hinv hrun).settles hn
  rwa [hidle] at hsettles

/-- Settles O55: the invariant holds along the run. -/
theorem enablePulsesAreFramed : Obligations.EnablePulsesAreFramed := fun _ _ _ hinv hrun =>
  (run_keeps_inv hinv hrun).edges

end Sys2Proof.Machine
end

section
/-! PROOFS of the family 41_command_sequencer: doCmd, doData and readData are one byte transaction each, followed by
their wait (R120, R121, R122). -/

namespace Sys2Proof.Machine

open Sys2Proof

-- The traces of a byte and of a wait (R102, R103, R130)

@[simp] theorem afterWrite8_cfg (s : State) (rs : Bool) (b : Byte) : (s.afterWrite8 rs b).cfg = s.cfg := rfl

@[simp] theorem afterRead8_cfg (s : State) (rs : Bool) (v : Byte × Byte) : (s.afterRead8 rs v).cfg = s.cfg := rfl

@[simp] theorem afterWrite8_trace (s : State) (rs : Bool) (b : Byte) :
    (s.afterWrite8 rs b).trace = s.trace ++ write8Trace s.cfg rs b := rfl

@[simp] theorem afterRead8_trace (s : State) (rs : Bool) (v : Byte × Byte) :
    (s.afterRead8 rs v).trace = s.trace ++ read8Trace s.cfg rs v := rfl

@[simp] theorem afterWait_trace (s : State) (w : Polls) :
    (s.afterWait w).trace = s.trace ++ policyWaitTrace s.cfg w := by
  cases hv : s.cfg.variant with
  | bf => simp only [afterWait_bf hv, State.afterPolls, State.emit, policyWaitTrace, hv]
  | fd => simp only [afterWait_fd hv, State.emit, policyWaitTrace, hv]

theorem policyWaitTrace_bf {cfg : Config} (h : cfg.variant = .bf) (w : Polls) :
    policyWaitTrace cfg w = busyWaitTrace cfg w := by
  simp only [policyWaitTrace, h]

/-- The events of a transaction are those of its byte, then those of its wait (R120, R121). -/
theorem transaction_trace (s : State) (rs : Bool) (b : Byte) (w : Polls) :
    ((s.afterWrite8 rs b).afterWait w).trace = s.trace ++ (write8Trace s.cfg rs b ++ policyWaitTrace s.cfg w) := by
  rw [afterWait_trace, afterWrite8_cfg, afterWrite8_trace, List.append_assoc]

/-- Settles O14: `doCmd` is one transaction on the instruction register. -/
theorem doCmdWritesThenWaits : Obligations.DoCmdWritesThenWaits := fun s b w _ hq hw hx =>
  ⟨_, _, rfl, Quiet.runs_transactionSteps hq hw hx IR b, rfl, transaction_trace s IR b w⟩

/-- Settles O15: `doData` is one transaction on the data register. -/
theorem doDataWritesThenWaits : Obligations.DoDataWritesThenWaits := fun s b w _ hq hw hx =>
  ⟨_, _, rfl, Quiet.runs_transactionSteps hq hw hx DR b, rfl, transaction_trace s DR b w⟩

/-- The value is kept as soon as the data pair is read, so the polls that follow do not touch it (R122). -/
theorem Quiet.runs_readDataSteps {s : State} (hq : Quiet s) (hbf : s.cfg.variant = .bf) {v : Byte × Byte} {w : Polls}
    (hw : w.Valid) {rest : List Byte} (hx : s.rx = v.1 :: v.2 :: (pairBytes w.all ++ rest)) :
    Reaches (s.push [.unit (.read8 DR), .keepRead, .run .busyWait])
      { (s.afterRead8 DR v).afterWait w with rdata := assembled v } := by
  have hread : Reaches (s.push [.unit (.read8 DR), .keepRead, .run .busyWait])
      ((s.afterRead8 DR v).push [.keepRead, .run .busyWait]) :=
    Quiet.runs_read8 (s := s.push [.keepRead, .run .busyWait]) hq hbf hx DR
  have hleft : (s.afterRead8 DR v).rx = pairBytes w.all ++ rest := congrArg (List.drop 2) hx
  have hpolls : Reaches (State.push [.run .busyWait] { s.afterRead8 DR v with rdata := assembled v })
      { (s.afterRead8 DR v).afterPolls w rest with rdata := assembled v } :=
    Quiet.runs_busyWait (s := { s.afterRead8 DR v with rdata := assembled v }) hq hbf hw hleft
  have hkeep : Reaches ((s.afterRead8 DR v).push [.keepRead, .run .busyWait])
      { (s.afterRead8 DR v).afterPolls w rest with rdata := assembled v } :=
    quiet_run (s := (s.afterRead8 DR v).push [.run .busyWait]) hq rfl hpolls
  rw [afterWait_bf (s := s.afterRead8 DR v) hbf, hleft, List.drop_left]
  exact hread.trans hkeep

/-- The events of `readData` are those of its read, then those of its polls (R122). -/
theorem readData_trace {s : State} (hbf : s.cfg.variant = .bf) (v : Byte × Byte) (w : Polls) :
    ((s.afterRead8 DR v).afterWait w).trace = s.trace ++ readDataTrace s.cfg v w := by
  rw [afterWait_trace, afterRead8_cfg, policyWaitTrace_bf hbf, afterRead8_trace, List.append_assoc, readDataTrace]

/-- Settles O16: in BF the run and its events; in FD `readData` is absent. -/
theorem readDataReadsThenWaits : Obligations.ReadDataReadsThenWaits := by
  refine ⟨fun s v w rest hq hbf hw hx => ?_, fun s hfd => ?_⟩
  · exact ⟨_, _, exec_readData_bf hbf, Quiet.runs_readDataSteps hq hbf hw hx, rfl, readData_trace hbf v w⟩
  · obtain ⟨-, -, habsent, -⟩ := exec_absent_fd hfd
    exact habsent

end Sys2Proof.Machine
end

section
/-! PROOFS of the family 42_timing_policy: the timer's hold (R138 to R141), the waits of the two variants (R130 to
R134), and what the invariant gives along every run (R131, R140). -/

namespace Sys2Proof.Machine

open Sys2Proof

-- The timer holds the sequencer (R138, R139, R141)

/-- As long as the timer runs each step is one tick (R138). -/
theorem run_ticks_of_le {s : State} (hhost : s.host = []) {j : Nat} (hj : j ≤ s.tmr) :
    run j s = .next { s with tmr := s.tmr - j } := by
  induction j generalizing s with
  | zero => exact run_zero s
  | succ j ih =>
    have htick : step s = .next s.tick := by
      rw [step_quiet hhost]
      exact engine_ticks (by omega) false
    have hticks := ih (s := s.tick) hhost (Nat.le_sub_one_of_lt hj)
    rw [run_succ htick, hticks, State.tick, Nat.sub_sub, Nat.add_comm 1 j]

/-- A run that stops the timer has at least as many steps as the timer counts (R139). -/
theorem tmr_le_of_run_stops {s u : State} {j : Nat} (hhost : s.host = []) (hrun : run j s = .next u)
    (hstop : u.tmr = 0) : s.tmr ≤ j := by
  by_contra hlt
  rw [run_ticks_of_le hhost (by omega)] at hrun
  cases hrun
  have hleft : s.tmr - j = 0 := hstop
  omega

/-- Settles O8: the count is the least one by `ticksFor_spec`, and the ticks change nothing but `TMR`. -/
theorem delayHoldsTheSequencer : Obligations.DelayHoldsTheSequencer := by
  intro s n hwf hhost
  have hticks : ∀ j ≤ ticksFor s.cfg n, run j (s.startDelay n) =
      .next { s.startDelay n with tmr := ticksFor s.cfg n - j } := fun j hj =>
    run_ticks_of_le (s := s.startDelay n) hhost hj
  refine ⟨ticksFor s.cfg n, s.startDelay n, ticksFor_spec hwf n, rfl, rfl, fun j hj => ?_, ?_⟩
  · exact ⟨_, hticks j hj.le, rfl⟩
  · rw [hticks _ le_rfl, Nat.sub_self]

/-- Settles O9: the run has as many ticks as the delay loads, and those last `n`. -/
theorem delayIsALowerBound : Obligations.DelayIsALowerBound := by
  intro s t u n j hwf hhost hexec hrun hstop
  cases hexec
  have hcount : ticksFor s.cfg n ≤ j := tmr_le_of_run_stops (s := s.startDelay n) hhost hrun hstop
  calc n ≤ ticksFor s.cfg n * s.cfg.tickNs := (ticksFor_spec hwf n).1
    _ ≤ j * s.cfg.tickNs := Nat.mul_le_mul_right _ hcount

/-- Settles O45: without a reset the step is a move of the engine, and with the timer running that is a tick. -/
theorem runningTimerHoldsEverything : Obligations.RunningTimerHoldsEverything := by
  intro s hreset htmr
  have hrunning : s.afterHost.tmr ≠ 0 := by rwa [afterHost_tmr]
  rw [step_no_reset hreset, engine_ticks hrunning, afterHost_eq]
  rfl

-- The waits (R130, R132, R134)

@[simp] theorem afterWait_seq (s : State) (w : Polls) : (s.afterWait w).seq = s.seq := by
  cases hv : s.cfg.variant with
  | bf => rw [afterWait_bf hv]; rfl
  | fd => rw [afterWait_fd hv]; rfl

/-- Settles O10: the run of the position begins with `exec`. -/
theorem policyWaitFollowsTheVariant : Obligations.PolicyWaitFollowsTheVariant := by
  intro s w rest hq hw hx
  obtain ⟨t, ht⟩ : ∃ t, exec .policyWait s = .next t := runMicro_next_of_legal (m := .run .policyWait) rfl
  have hleft : (s.afterWait w).seq ≠ .run .policyWait :: s.seq := by
    rw [afterWait_seq]
    exact (List.cons_ne_self _ _).symm
  exact ⟨t, ht, quiet_run_tail (m := .run .policyWait) hq ht (Quiet.runs_policyWait hq hw hx) hleft⟩

/-- Settles O11: in BF the run of the position begins with `exec`; in FD `busyWait` is absent. -/
theorem busyWaitPollsUntilFree : Obligations.BusyWaitPollsUntilFree := by
  refine ⟨fun s w rest hq hbf hw hx => ?_, fun s hfd => ?_⟩
  · have hexec := exec_busyWait_bf hbf
    have hleft : (s.afterPolls w rest).seq ≠ .run .busyWait :: s.seq := (List.cons_ne_self _ _).symm
    exact ⟨_, hexec, quiet_run_tail (m := .run .busyWait) hq hexec (Quiet.runs_busyWait hq hbf hw hx) hleft⟩
  · obtain ⟨-, -, -, habsent, -⟩ := exec_absent_fd hfd
    exact habsent

/-- After any number of busy polls the engine is back at the busy-wait, by induction on the polls (R134). -/
theorem Quiet.runs_busyPolls {s : State} {vs : List (Byte × Byte)} {rest : List Byte} (hq : Quiet s)
    (hbf : s.cfg.variant = .bf) (hbusy : ∀ v ∈ vs, (assembled v).getLsbD 7 = true) (hx : s.rx = pairBytes vs ++ rest) :
    ∃ u, Reaches (s.push [.run .busyWait]) u ∧ u.seq = .run .busyWait :: s.seq ∧
      u.trace = s.trace ++ vs.flatMap (read8Trace s.cfg false) ∧ u.responses = s.responses ∧ u.status = s.status := by
  induction vs generalizing s with
  | nil => exact ⟨_, .refl _, rfl, (List.append_nil _).symm, rfl, rfl⟩
  | cons v vs ih =>
    have hpoll := Quiet.runs_poll hq hbf hx
    rw [hbusy v List.mem_cons_self, if_pos rfl] at hpoll
    have hdrop : s.rx.drop 2 = pairBytes vs ++ rest := by rw [hx]; rfl
    obtain ⟨u, hu, hseq, htrace, hresponses, hstatus⟩ := ih (s := { s.afterRead8 IR v with bf := true }) hq hbf
      (fun x hx => hbusy x (List.mem_cons_of_mem v hx)) hdrop
    exact ⟨u, hpoll.trans hu, hseq, htrace.trans (List.append_assoc _ _ _), hresponses, hstatus⟩

/-- A run issues at most one event for each of its steps (R60). -/
theorem run_trace_length {n : Nat} {s t : State} (h : run n s = .next t) :
    t.trace.length ≤ s.trace.length + n := by
  induction n generalizing s with
  | zero => cases h; exact le_rfl
  | succ n ih =>
    obtain ⟨u, hu, hrun⟩ := run_succ_next h
    have hstep : u.trace.length ≤ s.trace.length + 1 := by
      rcases step_cases s with ⟨cfg, -, he⟩ | ⟨hnone, -⟩
      · rw [he] at hu; cases hu; exact Nat.zero_le _
      · rcases traceGrowsByOneEvent s u hu hnone with he | ⟨e, he⟩ <;> simp [he]
    have hrest := ih hrun
    omega

/-- Each poll has events of its own. -/
theorem length_le_polls_trace (cfg : Config) (vs : List (Byte × Byte)) :
    vs.length ≤ (vs.flatMap (read8Trace cfg false)).length := by
  have hpoll : ∀ v, (read8Trace cfg false v).length = 16 := fun _ => rfl
  rw [List.length_flatMap, List.map_congr_left fun v _ => hpoll v, List.map_const', List.sum_replicate]
  exact Nat.le_mul_of_pos_right _ (by decide)

/-- Settles O12: the polls lead back to the busy-wait, and their events need a step each. -/
theorem busyWaitHasNoTimeout : Obligations.BusyWaitHasNoTimeout := by
  intro s k vs rest hq hbf hseq hbusy hx
  have hback : (s.goto k).push [.run .busyWait] = s := by
    cases s; cases hseq; rfl
  obtain ⟨u, ⟨n, hrun⟩, huseq, htrace, hresponses, hstatus⟩ :=
    Quiet.runs_busyPolls (s := s.goto k) hq hbf hbusy hx
  rw [hback] at hrun
  have hsteps : u.trace.length ≤ s.trace.length + n := run_trace_length hrun
  have hevents : u.trace.length = s.trace.length + (vs.flatMap (read8Trace s.cfg false)).length := by
    rw [htrace, List.length_append]; rfl
  have hpolls := length_le_polls_trace s.cfg vs
  exact ⟨n, u, by omega, hrun, huseq, htrace, hresponses, hstatus⟩

-- Progress (R131, R188)

/-- Settles O53: a busy engine's position is legal and so it runs, an idle one's request fits and so it is accepted. -/
theorem stepAnswersANextState : Obligations.StepAnswersANextState := by
  intro s hinv hreset hfits
  rw [step_no_reset hreset]
  rcases engine_cases s.hostNow.cancel s.afterHost with ⟨-, he⟩ | ⟨-, -, -, he⟩ | ⟨-, hseq, r, hreq, he⟩ |
    ⟨-, -, -, he⟩ | ⟨-, m, k, hseq, -, he⟩
  · exact ⟨_, he⟩
  · exact ⟨_, he⟩
  · rw [afterHost_seq] at hseq
    rw [afterHost_req] at hreq
    obtain ⟨i, hdecode, hwf⟩ := hfits hseq r hreq
    rw [he]
    exact accept_next_of_wf hdecode (by rwa [afterHost_cfg])
  · exact ⟨_, he⟩
  · rw [afterHost_seq] at hseq
    have hlegal : m.legal s.cfg = true := hinv.legal m (by rw [hseq]; exact List.mem_cons_self)
    rw [he]
    exact runMicro_next_of_legal (by rwa [State.goto_cfg, afterHost_cfg])

-- What the invariant gives along every run (R131, R140)

/-- An event an FD engine may issue is no read and carries no `rw` (R131). -/
theorem no_read_of_allowed_fd {cfg : Config} (hfd : cfg.variant = .fd) {e : Event} (h : e.allowed cfg = true) :
    (∀ v, e ≠ .recv v) ∧ e ≠ .recvFailed ∧ ∀ bs, e = .send bs ∨ e = .sendFailed bs → bs.rw = none := by
  have hbf : isBf cfg = false := by rw [isBf, hfd]; rfl
  cases e with
  | send bs | sendFailed bs =>
    have hrw : bs.rw = none := by simpa [Event.allowed, hbf] using h
    simp [hrw]
  | delay n => simp
  | recv v | recvFailed => rw [Event.allowed, hbf] at h; cases h

/-- Settles O56: the invariant holds along the run, and it admits only allowed events. -/
theorem fdTraceHasNoReads : Obligations.FdTraceHasNoReads := fun _ _ _ hinv hrun hfd e he =>
  no_read_of_allowed_fd hfd ((run_keeps_inv hinv hrun).events e he)

/-- The ten delay parameters (R140). -/
def delayParameters (cfg : Config) : List Nat :=
  [cfg.tINIT1, cfg.tCLEAR, cfg.tINIT2, cfg.tEXEC, cfg.tINIT3, cfg.tAS, cfg.tPW, cfg.tCYCR, cfg.tDDR, cfg.tRDH]

theorem maxDelay_eq_foldl_delayParameters (cfg : Config) : cfg.maxDelay = (delayParameters cfg).foldl max 0 := rfl

/-- A width holds the longest delay's count exactly if it is at least `TMR_WIDTH` (R140). -/
theorem timerWidth_le_iff (cfg : Config) (w : Nat) :
    timerWidth cfg ≤ w ↔ ticksFor cfg cfg.maxDelay < 2 ^ w := by
  unfold timerWidth
  split
  · rename_i h0
    simp [h0]
  · rename_i h0
    exact Nat.succ_le_iff.trans (Nat.log2_lt h0)

/-- The longest delay's count fits a width exactly if all ten counts do. -/
theorem ticksFor_delayParameters_lt_iff (cfg : Config) (m : Nat) :
    (∀ d ∈ delayParameters cfg, ticksFor cfg d < m) ↔ ticksFor cfg cfg.maxDelay < m := by
  constructor
  · intro h
    have hzero : ticksFor cfg 0 < m :=
      (ticksFor_mono cfg (Nat.zero_le cfg.tINIT1)).trans_lt (h cfg.tINIT1 List.mem_cons_self)
    rw [maxDelay_eq_foldl_delayParameters]
    refine List.foldlRecOn (motive := fun d => ticksFor cfg d < m) _ max hzero fun b hb d hd => ?_
    rcases max_choice b d with hmax | hmax <;> rw [hmax]
    · exact hb
    · exact h d hd
  · exact fun h d hd => (ticksFor_mono cfg (le_maxDelay cfg hd)).trans_lt h

/-- Settles O58: the invariant bounds the timer along the run, and `TMR_WIDTH` is the least width by its definition. -/
theorem timerNeverWraps : Obligations.TimerNeverWraps := fun _ t _ hinv hrun =>
  ⟨(run_keeps_inv hinv hrun).timer, fun w =>
    (ticksFor_delayParameters_lt_iff t.cfg (2 ^ w)).trans (timerWidth_le_iff t.cfg w).symm⟩

end Sys2Proof.Machine
end

section
/-! PROOFS of the family 43_init_sequence: positions of `SEQ` that are done one after the other issue their events one
after the other, so `INIT` issues those of its nine steps (R150). -/

namespace Sys2Proof.Machine

open Sys2Proof

-- What some positions of SEQ do in a quiet world

/-- From `s` to `u` the events `es` were issued and the answers `rest` are left. `BYTE`, `PHASE` and `BF` are as the
last transaction left them; all else is as it was. -/
def Progress (s u : State) (es : List Event) (rest : List Byte) : Prop :=
  ∃ b p f, u = { s.emit es with byte := b, phase := p, bf := f, rx := rest }

section
variable {s u : State} {es : List Event} {rest : List Byte} (h : Progress s u es rest)
include h

theorem Progress.cfg_eq : u.cfg = s.cfg := by
  obtain ⟨b, p, f, rfl⟩ := h; rfl

theorem Progress.rx_eq : u.rx = rest := by
  obtain ⟨b, p, f, rfl⟩ := h; rfl

theorem Progress.quiet (hq : Quiet s) : Quiet u := by
  obtain ⟨b, p, f, rfl⟩ := h; exact hq

theorem Progress.trans {v : State} {es' : List Event} {rest' : List Byte} (h' : Progress u v es' rest') :
    Progress s v (es ++ es') rest' := by
  obtain ⟨b, p, f, rfl⟩ := h
  obtain ⟨b', p', f', rfl⟩ := h'
  exact ⟨b', p', f', by rw [← emit_emit]; rfl⟩

end

/-- What stands behind the positions that are done is not touched. -/
theorem Progress.of_push {s u : State} {ms : List Micro} {es : List Event} {rest : List Byte}
    (h : Progress (s.push ms) u es rest) : ∃ v, u = v.push ms ∧ Progress s v es rest := by
  obtain ⟨b, p, f, rfl⟩ := h
  exact ⟨{ s.emit es with byte := b, phase := p, bf := f, rx := rest }, rfl, b, p, f, rfl⟩

theorem progress_emit {s : State} {rest : List Byte} (es : List Event) (hx : s.rx = rest) :
    Progress s (s.emit es) es rest :=
  ⟨s.byte, s.phase, s.bf, by rw [← hx]; rfl⟩

theorem progress_afterWrite8 {s : State} {rest : List Byte} (rs : Bool) (b : Byte) (hx : s.rx = rest) :
    Progress s (s.afterWrite8 rs b) (write8Trace s.cfg rs b) rest :=
  ⟨b, .lo, s.bf, by rw [← hx]; rfl⟩

/-- A policy wait uses up the answers to its polls (R130). -/
theorem progress_afterWait {s : State} {w : Polls} {rest : List Byte} (hx : s.rx = waitBytes s.cfg w ++ rest) :
    Progress s (s.afterWait w) (policyWaitTrace s.cfg w) rest := by
  cases hv : s.cfg.variant with
  | bf =>
    have hdrop : s.rx.drop (pairBytes w.all).length = rest := by rw [hx, waitBytes, hv, List.drop_left]
    rw [afterWait_bf hv, hdrop, policyWaitTrace_bf hv]
    exact ⟨assembled w.last, .lo, false, rfl⟩
  | fd =>
    have hleft : s.rx = rest := by rw [hx, waitBytes, hv, List.nil_append]
    rw [afterWait_fd hv, policyWaitTrace, hv]
    exact progress_emit [.delay s.cfg.tEXEC] hleft

/-- In a quiet world of this configuration, whatever stands behind them, the positions `ms` are done with the events
`es`, if the controller answers the policy waits with the polls `ws`. -/
def Performs (cfg : Config) (ms : List Micro) (es : List Event) (ws : List Polls) : Prop :=
  ∀ (s : State) (rest : List Byte), Quiet s → s.cfg = cfg → WaitsOk cfg ws →
    s.rx = ws.flatMap (waitBytes cfg) ++ rest → ∃ u, Reaches (s.push ms) u ∧ Progress s u es rest

/-- Positions that are done one after the other issue their events one after the other. -/
theorem Performs.append {cfg : Config} {ms ms' : List Micro} {es es' : List Event} {ws ws' : List Polls}
    (h : Performs cfg ms es ws) (h' : Performs cfg ms' es' ws') :
    Performs cfg (ms ++ ms') (es ++ es') (ws ++ ws') := by
  intro s rest hq hcfg hw hx
  rw [List.flatMap_append, List.append_assoc] at hx
  obtain ⟨_, hreach, hpushed⟩ := h (s.push ms') (ws'.flatMap (waitBytes cfg) ++ rest) hq hcfg
    (fun hbf w hm => hw hbf w (List.mem_append_left _ hm)) hx
  obtain ⟨t, rfl, hprog⟩ := hpushed.of_push
  obtain ⟨u, hreach', hprog'⟩ := h' t rest (hprog.quiet hq) (hprog.cfg_eq.trans hcfg)
    (fun hbf w hm => hw hbf w (List.mem_append_right _ hm)) hprog.rx_eq
  exact ⟨u, push_append s ms ms' ▸ hreach.trans hreach', hprog.trans hprog'⟩

/-- A position that is replaced by `ms` does what they do. -/
theorem Performs.expand {cfg : Config} {m : Micro} {ms : List Micro} {es : List Event} {ws : List Polls}
    (h : Performs cfg ms es ws) (hm : ∀ s : State, s.cfg = cfg → runMicro m s = .next (s.push ms)) :
    Performs cfg [m] es ws := by
  intro s rest hq hcfg hw hx
  obtain ⟨u, hreach, hprog⟩ := h s rest hq hcfg hw hx
  exact ⟨u, quiet_run hq (hm s hcfg) hreach, hprog⟩

-- The units and the policy wait (R100, R102, R130, R138)

theorem performs_delay (cfg : Config) (n : Nat) : Performs cfg [.unit (.delay n)] [.delay n] [] := by
  intro s rest hq _ _ hx
  exact ⟨_, Quiet.runs_delay hq n, progress_emit [.delay n] hx⟩

theorem performs_write4Steps (cfg : Config) (rs : Bool) (n : Nibble) :
    Performs cfg (write4Steps cfg rs n) (write4Trace cfg rs n) [] := by
  rintro s rest hq rfl _ hx
  exact ⟨_, Quiet.runs_write4Steps hq rs n, progress_emit (write4Trace s.cfg rs n) hx⟩

theorem performs_write8 (cfg : Config) (rs : Bool) (b : Byte) :
    Performs cfg [.unit (.write8 rs b)] (write8Trace cfg rs b) [] := by
  rintro s rest hq rfl _ hx
  exact ⟨_, Quiet.runs_write8 hq rs b, progress_afterWrite8 rs b hx⟩

theorem performs_policyWait (cfg : Config) (w : Polls) :
    Performs cfg [.run .policyWait] (policyWaitTrace cfg w) [w] := by
  rintro s rest hq rfl hw hx
  rw [List.flatMap_singleton] at hx
  exact ⟨_, Quiet.runs_policyWait hq hw hx, progress_afterWait hx⟩

-- The instructions a step list holds (R76 to R83, R120, R150, R160)

/-- A command instruction is `doCmd` of its byte (R75, R120). -/
theorem performs_command {i : Instr} {b : Byte} (hi : ∀ s, exec i s = .next (issueCommand b s)) (cfg : Config)
    (w : Polls) : Performs cfg [.run i] (doCmdTrace cfg b w) [w] :=
  have hdoCmd : Performs cfg [.run (.doCmd b)] (doCmdTrace cfg b w) [w] :=
    ((performs_write8 cfg IR b).append (performs_policyWait cfg w)).expand fun _ _ => rfl
  hdoCmd.expand fun s _ => hi s

/-- A single nibble is a stand-alone `write4` (R83). -/
theorem performs_nibble {i : Instr} {n : Nibble} (hi : ∀ s, exec i s = .next (issueNibble n s)) (cfg : Config) :
    Performs cfg [.run i] (write4Trace cfg false n) [] :=
  have hunit : Performs cfg [.unit (.write4 IR n)] (write4Trace cfg IR n) [] :=
    (performs_write4Steps cfg IR n).expand fun _ hs => hs ▸ rfl
  hunit.expand fun s _ => hi s

/-- `clear()` waits `T_CLEAR` after its command in FD only (R160). -/
theorem performs_clearSteps (cfg : Config) (w : Polls) : Performs cfg (clearSteps cfg) (clearTrace cfg w) [w] := by
  have hcommand : Performs cfg [.run .cmdClear] (doCmdTrace cfg 0x01#8 w) [w] := performs_command (fun _ => rfl) cfg w
  cases hv : cfg.variant with
  | bf =>
    rw [clearSteps, clearTrace, hv, List.append_nil]
    exact hcommand
  | fd =>
    rw [clearSteps, clearTrace, hv]
    exact hcommand.append (performs_delay cfg cfg.tCLEAR)

/-- The nine steps of `INIT`, in order (R150). -/
theorem performs_initSteps (cfg : Config) (w : Fin 6 → Polls) :
    Performs cfg (initSteps cfg) (initTrace cfg w) [w 0, w 1, w 2, w 3, w 4, w 5] := by
  have hnibble3 := performs_nibble (i := .initNibble3) (fun _ => rfl) cfg
  have hnibble2 := performs_nibble (i := .initNibble2) (fun _ => rfl) cfg
  have hfunctionSet := performs_command (i := .cmdFunctionSet) (fun _ => rfl) cfg (w 1)
  have hdisplayOff := performs_command (i := .cmdDisplayControl false false false) (fun _ => rfl) cfg (w 2)
  have hentryMode := performs_command (i := .cmdEntryMode true false) (fun _ => rfl) cfg (w 4)
  have hdisplayOn := performs_command (i := .cmdDisplayControl true false false) (fun _ => rfl) cfg (w 5)
  have hnine := hnibble3.append (performs_delay cfg cfg.tINIT1)
    |>.append hnibble3 |>.append (performs_delay cfg cfg.tINIT2)
    |>.append hnibble3 |>.append (performs_delay cfg cfg.tINIT3)
    |>.append hnibble2 |>.append (performs_policyWait cfg (w 0))
    |>.append hfunctionSet
    |>.append hdisplayOff
    |>.append (performs_clearSteps cfg (w 3))
    |>.append (hentryMode.append hdisplayOn)
  rw [initTrace, List.append_assoc]
  exact hnine

-- A host operation from acceptance to its response (R33, R180)

/-- In an idle engine the step list of an operation stands before its completion alone. -/
theorem begin_eq_push {s : State} (hs : s.seq = []) (ms : List Micro) : s.begin ms = (s.push [.finish]).push ms := by
  rw [State.begin, State.push, State.push, hs]; rfl

/-- Completion answers `OK`, with no data as none was collected (R180, R203). -/
theorem Progress.completed {s v : State} {r : Request} {es : List Event} {rest : List Byte} (hq : QuietIdle s)
    (h : Progress (s.latch r) v es rest) : Completed s v.complete es [] rest := by
  obtain ⟨⟨-, -, -, htmr⟩, -⟩ := hq
  obtain ⟨b, p, f, rfl⟩ := h
  have hresult : (s.latch r).result = [] := ite_self []
  exact ⟨rfl, rfl, htmr, rfl, rfl, rfl, rfl, by rw [← hresult]; rfl, rfl, rfl, rfl, rfl, rfl⟩

/-- A host operation without an argument fault does its step list and then completes (R33, R180). -/
theorem Performs.operation_completes {i : Instr} {r : Request} {s : State} {es : List Event} {ws : List Polls}
    {rest : List Byte}
    (h : Performs s.cfg (operationSteps s.cfg i) es ws) (hi : encode i = some (.request r))
    (hfault : argumentFault s.cfg i = none) (hq : QuietIdle s) (hw : WaitsOk s.cfg ws)
    (hx : s.rx = ws.flatMap (waitBytes s.cfg) ++ rest) :
    ∃ t u, exec i s = .next t ∧ Reaches t u ∧ Completed s u es [] rest := by
  have ⟨hquiet, hidle⟩ := hq
  obtain ⟨_, hsteps, hpushed⟩ := h ((s.latch r).push [.finish]) rest hquiet rfl hw hx
  obtain ⟨v, rfl, hprog⟩ := hpushed.of_push
  have hfinish : Reaches (v.push [.finish]) v.complete := quiet_run (hprog.quiet hquiet) rfl (.refl _)
  rw [← begin_eq_push (s := s.latch r) hidle] at hsteps
  exact ⟨_, _, exec_request_begin hi hidle hfault, hsteps.trans hfinish, hprog.completed hq⟩

/-- Settles O20: `INIT` has no argument fault, and its step list performs the nine steps. -/
theorem initRunsItsNineSteps : Obligations.InitRunsItsNineSteps := fun s w _ hq hw hx =>
  (performs_initSteps s.cfg w).operation_completes rfl rfl hq hw hx

end Sys2Proof.Machine
end

section
/-! PROOFS of the family 44_high_level_ops: CLEAR, HOME, ENTRY_MODE and DISPLAY_CONTROL are one command each (R160 to
R163). -/

namespace Sys2Proof.Machine

open Sys2Proof

-- The latched flags are read back (R24)

theorem entryModeByte_of_latched (l r : Bool) :
    entryModeByte ((entryModeFlags l r).getLsbD 1) ((entryModeFlags l r).getLsbD 0) = entryModeByte l r := by
  revert l r; decide

theorem displayControlByte_of_latched (d c b : Bool) :
    displayControlByte ((displayControlFlags d c b).getLsbD 2) ((displayControlFlags d c b).getLsbD 1)
      ((displayControlFlags d c b).getLsbD 0) = displayControlByte d c b := by
  revert d c b; decide

/-- A host operation whose steps hold one policy wait completes after their events (R33, R180). -/
theorem Performs.single_wait_completes {i : Instr} {r : Request} {s : State} {es : List Event} {w : Polls}
    {rest : List Byte} (h : Performs s.cfg (operationSteps s.cfg i) es [w]) (hi : encode i = some (.request r))
    (hfault : argumentFault s.cfg i = none) (hq : QuietIdle s) (hw : WaitsOk s.cfg [w])
    (hx : s.rx = waitBytes s.cfg w ++ rest) :
    ∃ t u, exec i s = .next t ∧ Reaches t u ∧ Completed s u es [] rest :=
  h.operation_completes hi hfault hq hw (by rwa [List.flatMap_singleton])

/-- Settles O21: the step list of `CLEAR` is the one `INIT` holds too. -/
theorem clearAddsItsDelayInFd : Obligations.ClearAddsItsDelayInFd := fun s w _ hq hw hx =>
  (performs_clearSteps s.cfg w).single_wait_completes (i := .opClear) rfl rfl hq hw hx

/-- Settles O22: the step list of `HOME` is its command alone. -/
theorem homeIsThePlainCommand : Obligations.HomeIsThePlainCommand := fun s w _ hq hw hx =>
  (performs_command (fun _ => rfl) s.cfg w).single_wait_completes (i := .opHome) rfl rfl hq hw hx

/-- Settles O23: the command is made of the latched flags, which are the operands. -/
theorem entryModeSendsItsTwoBits : Obligations.EntryModeSendsItsTwoBits := fun s l r w _ hq hw hx =>
  have hcommand : Performs s.cfg (operationSteps s.cfg (.opEntryMode l r))
      (doCmdTrace s.cfg (entryModeByte l r) w) [w] :=
    performs_command (fun _ => by rw [← entryModeByte_of_latched]; rfl) s.cfg w
  hcommand.single_wait_completes rfl rfl hq hw hx

/-- Settles O24: the command is made of the latched flags, which are the operands. -/
theorem displayControlSendsItsThreeBits : Obligations.DisplayControlSendsItsThreeBits := fun s d c b w _ hq hw hx =>
  have hcommand : Performs s.cfg (operationSteps s.cfg (.opDisplayControl d c b))
      (doCmdTrace s.cfg (displayControlByte d c b) w) [w] :=
    performs_command (fun _ => by rw [← displayControlByte_of_latched]; rfl) s.cfg w
  hcommand.single_wait_completes rfl rfl hq hw hx

end Sys2Proof.Machine
end

section
/-! PROOFS of the family 44_high_level_ops: a response has data only where `READ` completes (R171, R203). -/

namespace Sys2Proof.Machine

open Sys2Proof

/-- What a move adds to the responses: nothing, one without data, or the completion's (R180, R187, R190). -/
inductive Responds (xs : List Response) (result : List Byte) (xs' : List Response) : Prop where
  | silent (h : xs' = xs)
  | withoutData (e : Status) (r : Option Report) (h : xs' = xs ++ [⟨e, [], r⟩])
  | completion (h : xs' = xs ++ [⟨.ok, result, none⟩])

theorem exec_responds {i : Instr} {s t : State} (h : exec i s = .next t) :
    Responds s.responses s.result t.responses := by
  rcases request_or_not i with ⟨r, hr⟩ | hi
  · rcases exec_request_next_cases hr h with ⟨-, rfl⟩ | ⟨-, e, -, rfl⟩ | ⟨-, -, rfl⟩
    · exact .silent rfl
    · exact .withoutData e none rfl
    · exact .silent rfl
  · obtain rfl := exec_transaction_next hi h
    exact .silent rfl

theorem runMicro_responds {m : Micro} {s t : State} (h : runMicro m s = .next t) :
    Responds s.responses s.result t.responses := by
  cases m with
  | run i | unit i => exact exec_responds h
  | statusTest => exact exec_responds (i := decodeStatus s.byte) h
  | send bs =>
    cases h
    rcases s.send_cases bs with ⟨-, hs⟩ | ⟨r, -, hs⟩ <;> rw [hs]
    · exact .silent rfl
    · exact .withoutData .transportFailure (some r) rfl
  | recv =>
    obtain ⟨-, rfl⟩ := bfOnly_next h
    rcases s.recv_cases with ⟨-, hs⟩ | ⟨r, -, hs⟩ <;> rw [hs]
    · exact .silent rfl
    · exact .withoutData .transportFailure (some r) rfl
  | dataLoop =>
    cases h
    rw [dataLoop_eq_push]
    exact .silent rfl
  | finish => cases h; exact .completion rfl
  | writeLow | readLow | keepRead | startData | byteSent | byteRead => cases h; exact .silent rfl

theorem engine_responds {c : Bool} {s t : State} (h : engine c s = .next t) :
    Responds s.responses s.result t.responses := by
  rcases engine_cases c s with ⟨-, he⟩ | ⟨-, -, -, he⟩ | ⟨-, -, r, -, he⟩ | ⟨-, -, -, he⟩ | ⟨-, m, k, -, -, he⟩ <;>
    rw [he] at h
  · cases h; exact .silent rfl
  · cases h; exact .silent rfl
  · obtain ⟨i, u, -, -, hu, rfl⟩ := accept_next h
    exact exec_responds (s := { s with req := none }) (t := u) hu
  · cases h; exact .withoutData .cancelled none rfl
  · exact runMicro_responds (s := s.goto k) h

/-- A result with data is `RBUF`, and `OP` is `READ` (R171). -/
theorem result_ne_nil {s : State} (h : s.result ≠ []) : s.op = 0x6#4 ∧ s.result = s.rbuf := by
  have hop : s.op = 0x6#4 := by
    by_contra hne
    exact h (if_neg hne)
  exact ⟨hop, if_pos hop⟩

/-- Settles O37: of the three responses a move can add, only the completion's has data. -/
theorem onlyReadReturnsData : Obligations.OnlyReadReturnsData := by
  intro s t x hstep hreset hx hdata
  rw [step_no_reset hreset] at hstep
  rcases engine_responds hstep with hr | ⟨e, r, hr⟩ | hr <;> rw [hx, afterHost_responses] at hr
  · exact absurd hr (by simp)
  · obtain rfl := List.singleton_inj.1 (List.append_cancel_left hr)
    exact absurd rfl hdata
  · obtain rfl := List.singleton_inj.1 (List.append_cancel_left hr)
    obtain ⟨hop, hresult⟩ := result_ne_nil hdata
    rw [afterHost_op] at hop
    rw [afterHost_rbuf] at hresult
    exact ⟨hop, rfl, hresult, rfl⟩

end Sys2Proof.Machine
end

section
/-! PROOFS of the family 44_high_level_ops: the data phase of an operation transfers one byte for each pass of its
loop, in order (R27, R164 to R166, R169). -/

namespace Sys2Proof.Machine

open Sys2Proof

-- What part of a data phase leaves

/-- From `s` to `u`, in a data phase, the events `es` were issued, the bytes `data` were read, and the answers `rest`
are left. `IDX` is `n` (R27, R32). -/
def Transferred (s u : State) (n : Nat) (data : List Byte) (es : List Event) (rest : List Byte) : Prop :=
  ∃ v, Progress { s with idx := n, rbuf := s.rbuf ++ data, rdata := v } u es rest

/-- Outside the loop nothing is counted or collected. -/
theorem Progress.transferred {s u : State} {es : List Event} {rest : List Byte} (h : Progress s u es rest) :
    Transferred s u s.idx [] es rest :=
  ⟨s.rdata, by rwa [List.append_nil]⟩

section
variable {s u : State} {n : Nat} {data : List Byte} {es : List Event} {rest : List Byte}
  (h : Transferred s u n data es rest)
include h

theorem Transferred.cfg_eq : u.cfg = s.cfg := by
  obtain ⟨v, hp⟩ := h; exact hp.cfg_eq

theorem Transferred.rx_eq : u.rx = rest := by
  obtain ⟨v, hp⟩ := h; exact hp.rx_eq

theorem Transferred.quiet (hq : Quiet s) : Quiet u := by
  obtain ⟨v, hp⟩ := h; exact hp.quiet hq

theorem Transferred.op_eq : u.op = s.op := by
  obtain ⟨v, b, p, f, rfl⟩ := h; rfl

theorem Transferred.aBytes_eq : u.aBytes = s.aBytes := by
  obtain ⟨v, b, p, f, rfl⟩ := h; rfl

theorem Transferred.dataEnd_eq : u.dataEnd = s.dataEnd := by
  obtain ⟨v, b, p, f, rfl⟩ := h; rfl

theorem Transferred.idx_eq : u.idx = n := by
  obtain ⟨v, b, p, f, rfl⟩ := h; rfl

theorem Transferred.trans {w : State} {m : Nat} {data' : List Byte} {es' : List Event} {rest' : List Byte}
    (h' : Transferred u w m data' es' rest') : Transferred s w m (data ++ data') (es ++ es') rest' := by
  obtain ⟨v, b, p, f, rfl⟩ := h
  obtain ⟨v', b', p', f', rfl⟩ := h'
  exact ⟨v', b', p', f', by rw [← List.append_assoc, ← emit_emit]; rfl⟩

end

/-- What stands behind the positions that are done is not touched. -/
theorem Transferred.of_push {s u : State} {ms : List Micro} {n : Nat} {data : List Byte} {es : List Event}
    {rest : List Byte} (h : Transferred (s.push ms) u n data es rest) :
    ∃ v, u = v.push ms ∧ Transferred s v n data es rest := by
  obtain ⟨v, hp⟩ := h
  obtain ⟨w, rfl, hp'⟩ := Progress.of_push (s := { s with idx := n, rbuf := s.rbuf ++ data, rdata := v }) hp
  exact ⟨w, rfl, v, hp'⟩

-- The head of the loop (R27, R164 to R166)

theorem dataLoop_of_end {s : State} (h : s.idx = s.dataEnd) : dataLoop s = s := if_pos h

theorem dataLoop_of_read {s : State} (h : s.idx ≠ s.dataEnd) (hop : s.op = 0x6#4) :
    dataLoop s = s.push [.run .readData, .byteRead, .dataLoop] := (if_neg h).trans (if_pos hop)

theorem dataLoop_of_byte {s : State} {b : Byte} (h : s.idx ≠ s.dataEnd) (hop : s.op ≠ 0x6#4)
    (hb : s.aBytes[s.idx]? = some b) : dataLoop s = s.push [.run (.data b), .byteSent, .dataLoop] := by
  rw [dataLoop, if_neg h, if_neg hop, hb]

theorem progress_refl {s : State} {rest : List Byte} (hx : s.rx = rest) : Progress s s [] rest :=
  ⟨s.byte, s.phase, s.bf, by rw [← hx, State.emit, List.append_nil]; rfl⟩

/-- At its end the loop leaves. -/
theorem Quiet.leaves_dataLoop {s : State} {rest : List Byte} (hq : Quiet s) (hend : s.idx = s.dataEnd)
    (hx : s.rx = rest) : ∃ u, Reaches (s.push [.dataLoop]) u ∧ Transferred s u s.dataEnd [] [] rest :=
  have hleave : Reaches (s.push [.dataLoop]) s :=
    quiet_run hq (m := .dataLoop) (congrArg Host.Outcome.next (dataLoop_of_end hend)) (.refl s)
  ⟨s, hleave, hend ▸ (progress_refl hx).transferred⟩

-- One pass of the loop

/-- `DATA` is `doData` of its byte (R84, R121). -/
theorem performs_data (cfg : Config) (b : Byte) (w : Polls) :
    Performs cfg [.run (.data b)] (doDataTrace cfg b w) [w] :=
  have hdoData : Performs cfg [.run (.doData b)] (doDataTrace cfg b w) [w] :=
    ((performs_write8 cfg DR b).append (performs_policyWait cfg w)).expand fun _ _ => rfl
  hdoData.expand fun _ _ => rfl

/-- A pass of `WRITE` or `DEFINE_CHAR` sends the byte `IDX` names (R164, R166). -/
theorem Quiet.sends_byte {s : State} (hq : Quiet s) (hop : s.op ≠ 0x6#4) (hmore : s.idx ≠ s.dataEnd) {b : Byte}
    (hb : s.aBytes[s.idx]? = some b) {w : Polls} (hw : WaitsOk s.cfg [w]) {rest : List Byte}
    (hx : s.rx = waitBytes s.cfg w ++ rest) :
    ∃ t, Reaches (s.push [.dataLoop]) (t.push [.dataLoop]) ∧
      Transferred s t (s.idx + 1) [] (doDataTrace s.cfg b w) rest := by
  obtain ⟨_, hsend, hpushed⟩ := performs_data s.cfg b w (s.push [.byteSent, .dataLoop]) rest hq rfl hw
    (by rwa [List.flatMap_singleton])
  obtain ⟨v, rfl, hprog⟩ := hpushed.of_push
  have hcount : Reaches (v.push [.byteSent, .dataLoop]) (State.push [.dataLoop] { v with idx := v.idx + 1 }) :=
    quiet_run (s := v.push [.dataLoop]) (hprog.quiet hq) rfl (.refl _)
  refine ⟨{ v with idx := v.idx + 1 },
    quiet_run hq (congrArg Host.Outcome.next (dataLoop_of_byte hmore hop hb)) (hsend.trans hcount), ?_⟩
  obtain ⟨b', p, f, rfl⟩ := hprog
  exact ⟨s.rdata, b', p, f, by rw [List.append_nil]; rfl⟩

/-- A data read and its polls use up their answers (R122). -/
theorem progress_readData {s : State} (hbf : s.cfg.variant = .bf) {v : Byte × Byte} {w : Polls} {rest : List Byte}
    (hx : s.rx = v.1 :: v.2 :: (pairBytes w.all ++ rest)) :
    Progress s ((s.afterRead8 DR v).afterWait w) (readDataTrace s.cfg v w) rest := by
  have hread : Progress s (s.afterRead8 DR v) (read8Trace s.cfg DR v) (pairBytes w.all ++ rest) :=
    ⟨assembled v, .lo, s.bf, by rw [State.afterRead8, hx]; rfl⟩
  have hleft : (s.afterRead8 DR v).rx = waitBytes s.cfg w ++ rest := by rw [hread.rx_eq, waitBytes, hbf]
  rw [readDataTrace, ← policyWaitTrace_bf hbf]
  exact hread.trans (progress_afterWait hleft)

/-- A pass of `READ` appends the byte read to `RBUF` (R165). -/
theorem Quiet.reads_byte {s : State} (hq : Quiet s) (hbf : s.cfg.variant = .bf) (hop : s.op = 0x6#4)
    (hmore : s.idx ≠ s.dataEnd) {v : Byte × Byte} {w : Polls} (hw : w.Valid) {rest : List Byte}
    (hx : s.rx = v.1 :: v.2 :: (pairBytes w.all ++ rest)) :
    ∃ t, Reaches (s.push [.dataLoop]) (t.push [.dataLoop]) ∧
      Transferred s t (s.idx + 1) [assembled v] (readDataTrace s.cfg v w) rest := by
  have hread := quiet_run (s := s.push [.byteRead, .dataLoop]) (m := .run .readData) hq (exec_readData_bf hbf)
    (Quiet.runs_readDataSteps (s := s.push [.byteRead, .dataLoop]) hq hbf hw hx)
  obtain ⟨u, hu, hprog⟩ := (progress_readData (s := s.push [.byteRead, .dataLoop]) hbf hx).of_push
  rw [hu] at hread
  have hcount : Reaches { u.push [.byteRead, .dataLoop] with rdata := assembled v }
      (State.push [.dataLoop]
        { u with idx := u.idx + 1, rbuf := u.rbuf ++ [assembled v], rdata := assembled v }) :=
    quiet_run (s := State.push [.dataLoop] { u with rdata := assembled v }) (m := .byteRead) (hprog.quiet hq) rfl
      (.refl _)
  refine ⟨{ u with idx := u.idx + 1, rbuf := u.rbuf ++ [assembled v], rdata := assembled v },
    quiet_run hq (congrArg Host.Outcome.next (dataLoop_of_read hmore hop)) (hread.trans hcount), ?_⟩
  obtain ⟨b, p, f, rfl⟩ := hprog
  exact ⟨assembled v, b, p, f, rfl⟩

-- The whole loop

theorem WaitsOk.head {cfg : Config} {w : Polls} {ws : List Polls} (h : WaitsOk cfg (w :: ws)) : WaitsOk cfg [w] :=
  fun hbf x hx => h hbf x (List.mem_cons.2 (.inl (List.mem_singleton.1 hx)))

theorem WaitsOk.tail {cfg : Config} {w : Polls} {ws : List Polls} (h : WaitsOk cfg (w :: ws)) : WaitsOk cfg ws :=
  fun hbf x hx => h hbf x (List.mem_cons_of_mem w hx)

/-- The loop sends the bytes from `IDX` on, by induction on them (R164, R166, R169). -/
theorem Quiet.runs_writeLoop {s : State} {bytes : List Byte} {ws : List Polls} {rest : List Byte} (hq : Quiet s)
    (hop : s.op ≠ 0x6#4) (hend : s.dataEnd = s.idx + bytes.length) (hbytes : s.aBytes.drop s.idx = bytes)
    (hlen : ws.length = bytes.length) (hw : WaitsOk s.cfg ws)
    (hx : s.rx = ws.flatMap (waitBytes s.cfg) ++ rest) :
    ∃ u, Reaches (s.push [.dataLoop]) u ∧ Transferred s u s.dataEnd [] (dataTrace s.cfg bytes ws) rest := by
  induction bytes generalizing s ws with
  | nil =>
    obtain rfl := List.length_eq_zero_iff.1 hlen
    exact hq.leaves_dataLoop hend.symm hx
  | cons b bytes ih =>
    obtain ⟨w, ws, rfl⟩ := List.exists_cons_of_length_eq_add_one hlen
    have hb : s.aBytes[s.idx]? = some b := by rw [← List.head?_drop, hbytes]; rfl
    rw [List.flatMap_cons, List.append_assoc] at hx
    rw [List.length_cons] at hend
    obtain ⟨t, hpass, hsent⟩ := hq.sends_byte hop (by omega) hb hw.head hx
    have hcfg := hsent.cfg_eq
    obtain ⟨u, hloop, hrest⟩ := ih (hsent.quiet hq) (by rwa [hsent.op_eq])
      (by rw [hsent.dataEnd_eq, hsent.idx_eq]; omega)
      (by rw [hsent.aBytes_eq, hsent.idx_eq, ← List.tail_drop, hbytes]; rfl)
      (Nat.succ.inj hlen) (hcfg ▸ hw.tail) (by rw [hsent.rx_eq, hcfg])
    rw [hsent.dataEnd_eq, hcfg] at hrest
    exact ⟨u, hpass.trans hloop, hsent.trans hrest⟩

/-- The loop collects the bytes read, by induction on them (R165). -/
theorem Quiet.runs_readLoop {s : State} {vs : List (Byte × Byte)} {ws : List Polls} {rest : List Byte} (hq : Quiet s)
    (hbf : s.cfg.variant = .bf) (hop : s.op = 0x6#4) (hend : s.dataEnd = s.idx + vs.length)
    (hlen : ws.length = vs.length) (hw : WaitsOk s.cfg ws)
    (hx : s.rx = (vs.zip ws).flatMap (fun x => x.1.1 :: x.1.2 :: pairBytes x.2.all) ++ rest) :
    ∃ u, Reaches (s.push [.dataLoop]) u ∧
      Transferred s u s.dataEnd (vs.map assembled) (readsTrace s.cfg vs ws) rest := by
  induction vs generalizing s ws with
  | nil =>
    obtain rfl := List.length_eq_zero_iff.1 hlen
    exact hq.leaves_dataLoop hend.symm hx
  | cons v vs ih =>
    obtain ⟨w, ws, rfl⟩ := List.exists_cons_of_length_eq_add_one hlen
    rw [List.zip_cons_cons, List.flatMap_cons, List.append_assoc] at hx
    rw [List.length_cons] at hend
    obtain ⟨t, hpass, hread⟩ := hq.reads_byte hbf hop (by omega) (hw hbf w List.mem_cons_self) hx
    have hcfg := hread.cfg_eq
    obtain ⟨u, hloop, hrest⟩ := ih (hread.quiet hq) (by rwa [hcfg]) (by rwa [hread.op_eq])
      (by rw [hread.dataEnd_eq, hread.idx_eq]; omega) (Nat.succ.inj hlen) (hcfg ▸ hw.tail) hread.rx_eq
    rw [hread.dataEnd_eq, hcfg] at hrest
    exact ⟨u, hpass.trans hloop, hread.trans hrest⟩

end Sys2Proof.Machine
end

section
/-! PROOFS of the family 44_high_level_ops: WRITE, READ and DEFINE_CHAR are their address command and then their data
phase (R164 to R166). -/

namespace Sys2Proof.Machine

open Sys2Proof

-- An operation with a data phase, from acceptance to its response

/-- After its command the data phase begins with `IDX` and `RBUF` cleared (R27, R165). -/
theorem Performs.reaches_dataLoop {s : State} {c : Instr} {w : Polls} {es : List Event} {left : List Byte}
    (h : Performs s.cfg [.run c] es [w]) (hq : QuietIdle s) (hw : WaitsOk s.cfg [w])
    (hx : s.rx = waitBytes s.cfg w ++ left) (hrbuf : s.rbuf = []) :
    ∃ t, Reaches (s.begin [.run c, .startData, .dataLoop]) ((t.push [.finish]).push [.dataLoop]) ∧
      Transferred s t 0 [] es left := by
  have ⟨hquiet, hidle⟩ := hq
  obtain ⟨_, hcommand, hpushed⟩ := h (s.push [.startData, .dataLoop, .finish]) left hquiet rfl hw
    (by rwa [List.flatMap_singleton])
  obtain ⟨v, rfl, hprog⟩ := hpushed.of_push
  have hstart : Reaches (v.push [.startData, .dataLoop, .finish])
      (State.push [.dataLoop, .finish] { v with idx := 0, rbuf := [] }) :=
    quiet_run (s := v.push [.dataLoop, .finish]) (hprog.quiet hquiet) rfl (.refl _)
  rw [begin_eq_push hidle]
  refine ⟨{ v with idx := 0, rbuf := [] }, hcommand.trans hstart, ?_⟩
  obtain ⟨b, p, f, rfl⟩ := hprog
  exact ⟨s.rdata, b, p, f, by rw [hrbuf]; rfl⟩

/-- The bytes read are the result of `READ`; the other operations have none (R171, R203). -/
theorem Transferred.result_eq {s u : State} {r : Request} {n : Nat} {data : List Byte} {es : List Event}
    {rest : List Byte} (h : Transferred (s.latch r) u n data es rest) (hdata : data = [] ∨ r.opsel = 0x6#4) :
    u.result = data := by
  obtain ⟨v, b, p, f, rfl⟩ := h
  rcases hdata with rfl | hop
  · exact ite_self []
  · exact if_pos hop

/-- Completion answers `OK` with the bytes read (R180). -/
theorem Transferred.completed {s u : State} {r : Request} {n : Nat} {data : List Byte} {es : List Event}
    {rest : List Byte} (hq : QuietIdle s) (h : Transferred (s.latch r) u n data es rest)
    (hdata : data = [] ∨ r.opsel = 0x6#4) : Completed s u.complete es data rest := by
  obtain ⟨⟨-, -, -, htmr⟩, -⟩ := hq
  have hresult := h.result_eq hdata
  obtain ⟨v, b, p, f, rfl⟩ := h
  exact ⟨rfl, rfl, htmr, rfl, rfl, rfl, rfl, by rw [State.complete_responses, hresult]; rfl, rfl, rfl, rfl, rfl, rfl⟩

section
variable {i c : Instr} {r : Request} {s : State} {w : Polls} {es : List Event} (hq : QuietIdle s)
  (hi : encode i = some (.request r)) (hfault : argumentFault s.cfg i = none)
  (hsteps : operationSteps s.cfg i = [.run c, .startData, .dataLoop]) (hcommand : Performs s.cfg [.run c] es [w])
include hq hi hfault hsteps hcommand

/-- The command, the loop and the completion follow one another (R27, R33, R180). -/
theorem data_operation_completes {left rest data : List Byte} {es' : List Event} (hw : WaitsOk s.cfg [w])
    (hx : s.rx = waitBytes s.cfg w ++ left) (hdata : data = [] ∨ r.opsel = 0x6#4)
    (hloop : ∀ t, Transferred (s.latch r) t 0 [] es left → ∃ u, Reaches ((t.push [.finish]).push [.dataLoop]) u ∧
      Transferred (t.push [.finish]) u t.dataEnd data es' rest) :
    ∃ t u, exec i s = .next t ∧ Reaches t u ∧ Completed s u (es ++ es') data rest := by
  have ⟨hquiet, hidle⟩ := hq
  obtain ⟨t, hcommanded, hbegun⟩ := hcommand.reaches_dataLoop (s := s.latch r) hq hw hx rfl
  obtain ⟨_, hbytes, hpushed⟩ := hloop t hbegun
  obtain ⟨u, rfl, hsent⟩ := hpushed.of_push
  have hdone : Transferred (s.latch r) u t.dataEnd data (es ++ es') rest := hbegun.trans hsent
  have hfinish : Reaches (u.push [.finish]) u.complete := quiet_run (hdone.quiet hquiet) rfl (.refl _)
  have hbegin := exec_request_begin hi hidle hfault
  rw [hsteps] at hbegin
  exact ⟨_, _, hbegin, hcommanded.trans (hbytes.trans hfinish), hdone.completed hq hdata⟩

/-- An operation that sends its whole byte stream (R164, R166). -/
theorem write_operation_completes {ws : List Polls} {rest : List Byte} (hop : r.opsel ≠ 0x6#4)
    (hend : (s.latch r).dataEnd = r.stream.length) (hlen : ws.length = r.stream.length)
    (hw : WaitsOk s.cfg (w :: ws)) (hx : s.rx = (w :: ws).flatMap (waitBytes s.cfg) ++ rest) :
    ∃ t u, exec i s = .next t ∧ Reaches t u ∧ Completed s u (es ++ dataTrace s.cfg r.stream ws) [] rest := by
  have ⟨hquiet, _⟩ := hq
  rw [List.flatMap_cons, List.append_assoc] at hx
  refine data_operation_completes hq hi hfault hsteps hcommand hw.head hx (.inl rfl) fun t ht => ?_
  have hcfg : t.cfg = s.cfg := ht.cfg_eq
  rw [← hcfg]
  exact Quiet.runs_writeLoop (s := t.push [.finish]) (ht.quiet hquiet) (ht.op_eq ▸ hop)
    (by rw [State.push_idx, ht.idx_eq, Nat.zero_add]; exact ht.dataEnd_eq.trans hend)
    (by rw [State.push_idx, ht.idx_eq]; exact ht.aBytes_eq) hlen (hcfg ▸ hw.tail) (hcfg ▸ ht.rx_eq)

end

-- The command bytes of the address formulas (R85, R86)

theorem addressCommand_eq (line : BitVec 1) (column : BitVec 6) :
    addressCommand line column = setDdramByte (ddramAddress line column) := by
  revert line column; decide

theorem glyphCommand_eq {code : BitVec 4} (h : code.toNat ≤ 7) :
    glyphCommand code = setCgramByte (cgramAddress code) := by
  revert code; decide

theorem performs_addressCommand (cfg : Config) (line : BitVec 1) (column : BitVec 6) (w : Polls) :
    Performs cfg [.run (.cmdSetDdram (ddramAddress line column))] (doCmdTrace cfg (addressCommand line column) w)
      [w] :=
  performs_command (fun _ => by rw [addressCommand_eq]; rfl) cfg w

theorem performs_glyphCommand {code : BitVec 4} (h : code.toNat ≤ 7) (cfg : Config) (w : Polls) :
    Performs cfg [.run (.cmdSetCgram (cgramAddress code))] (doCmdTrace cfg (glyphCommand code) w) [w] :=
  performs_command (fun _ => by rw [glyphCommand_eq h]; rfl) cfg w

/-- Settles O25: the length port of `WRITE` is the length of its stream. -/
theorem writeSendsAddressThenBytes : Obligations.WriteSendsAddressThenBytes :=
  fun s line column _ w _ _ hq hlen hw hx =>
    write_operation_completes (i := .opWrite line column _) hq rfl rfl rfl
      (performs_addressCommand s.cfg line column w) (by decide : 0x5#4 ≠ 0x6#4) rfl hlen hw hx

/-- Settles O27: legal operands have no argument fault, and the data phase ends at the eighth row. -/
theorem defineCharSendsEightRows : Obligations.DefineCharSendsEightRows := by
  intro s code bitmap w ws rest hq hcode hrows hlen hw hx
  have hfault : argumentFault s.cfg (.opDefineChar code bitmap) = none := if_neg (by omega)
  exact write_operation_completes (i := .opDefineChar code bitmap) hq rfl hfault rfl
    (performs_glyphCommand hcode s.cfg w) (by decide : 0x7#4 ≠ 0x6#4) hrows.symm (hlen.trans hrows.symm) hw hx

/-- Settles O26: in BF `READ` has no argument fault, and its loop collects `A_LEN` bytes. -/
theorem readReturnsTheBytesInOrder : Obligations.ReadReturnsTheBytesInOrder := by
  rintro s line column _ w vs ws rest hq hbf rfl hlen hw hx
  have ⟨hquiet, _⟩ := hq
  have hfault : argumentFault s.cfg (.opRead line column vs.length) = none := if_neg (by rw [hbf]; decide)
  rw [List.append_assoc] at hx
  refine data_operation_completes hq rfl hfault rfl (performs_addressCommand s.cfg line column w) hw.head
    (by rw [hx, waitBytes, hbf]) (.inr rfl) fun t ht => ?_
  have hcfg : t.cfg = s.cfg := ht.cfg_eq
  rw [← hcfg]
  exact Quiet.runs_readLoop (s := t.push [.finish]) (ht.quiet hquiet) (hcfg ▸ hbf) ht.op_eq
    (by rw [State.push_idx, ht.idx_eq, Nat.zero_add]; exact ht.dataEnd_eq) hlen (hcfg ▸ hw.tail) ht.rx_eq

end Sys2Proof.Machine
end

section
/-! PROOFS of the family 60_exceptions: what acceptance does to a request, its argument check first (R181, R183, R191),
and a transport failure at its event (R182). -/

namespace Sys2Proof.Machine

open Sys2Proof

-- Acceptance

/-- An idle engine turns a request away by its argument fault, before any event (R181, R183, R190). -/
theorem exec_request_turnedAway {i : Instr} {r : Request} {s : State} {e : Status}
    (h : encode i = some (.request r)) (hs : s.seq = []) (he : argumentFault s.cfg i = some e) :
    ∃ t, exec i s = .next t ∧ TurnedAway s t e :=
  ⟨(s.latch r).raise e none, exec_request_fault h hs he, by simp [TurnedAway]⟩

/-- Settles O28: a misfit of `DEFINE_CHAR` and a reserved selector are argument faults. -/
theorem invalidArgumentBeforeAnyEvent : Obligations.InvalidArgumentBeforeAnyEvent := fun _ hs =>
  ⟨fun _ _ hmisfit => exec_request_turnedAway rfl hs (if_pos hmisfit),
    fun _ => exec_request_turnedAway rfl hs rfl⟩

/-- Settles O29: `READ` has an argument fault in FD. -/
theorem readIsUnsupportedInFd : Obligations.ReadIsUnsupportedInFd := fun _ _ _ _ hs hfd =>
  exec_request_turnedAway rfl hs (if_pos hfd)

/-- Settles O42: an idle engine latches no cancel before it accepts, so the host's input is consumed as the statement
says. -/
theorem stepRunsTheRequest : Obligations.StepRunsTheRequest := by
  intro s r i hreset hseq htmr hreq hdecode hwf
  have haccept : step s = accept s.hostNow.cancel r s.afterHost := by
    rw [step_no_reset hreset]
    exact engine_accepts (by rwa [afterHost_tmr]) (by rwa [afterHost_seq]) (by rwa [afterHost_req]) _
  have hconsumed : { s.afterHost with req := none } = { s with host := s.host.tail, req := none } := by
    simp [afterHost_eq, State.busy, hseq]
  rw [haccept, accept_runs hdecode (by rwa [afterHost_cfg]), hconsumed]
  rfl

/-- Settles O34: the accepted request is turned away, the engine idle again before the cancel could be latched, or its
operation begins and the cancel finds it in progress. -/
theorem argumentFaultsBeatACancel : Obligations.ArgumentFaultsBeatACancel := by
  intro s r i hreset hpresent hseq htmr hcancel hreq hdecode hwf
  have hstep := stepRunsTheRequest s r i hreset hseq htmr (by rwa [hpresent]) hdecode hwf
  obtain ⟨r', hr'⟩ := decode_request_encodes hdecode
  cases hfault : argumentFault s.cfg i with
  | some e =>
    rw [exec_request_fault (s := { s with host := s.host.tail, req := none }) hr' hseq hfault] at hstep
    exact ⟨_, hstep, by simp [State.busy]⟩
  | none =>
    rw [exec_request_begin (s := { s with host := s.host.tail, req := none }) hr' hseq hfault] at hstep
    exact ⟨_, hstep, by simp [State.busy, hcancel]⟩

-- The transport

theorem linkCode_of_head? {s : State} {r : Report} (h : s.link.head? = some (some r)) : s.linkCode = some r := by
  rw [State.linkCode, List.headD_eq_head?_getD, h]
  rfl

/-- Settles O30: an event inside a nibble is no cancellation point, so it is run, and its call fails. -/
theorem transportFailureStrikesAtItsEvent : Obligations.TransportFailureStrikesAtItsEvent := by
  intro s m k r hreset htmr hseq hlink
  have hcode : (s.afterHost.goto k).linkCode = some r := linkCode_of_head? (by simpa using hlink)
  have hstep : atCancellationPoint (m :: k) = false → step s = runMicro m (s.afterHost.goto k) := fun hpoint => by
    rw [step_no_reset hreset]
    exact engine_runs (by rwa [afterHost_tmr]) (by rwa [afterHost_seq]) (.inr hpoint)
  constructor
  · rintro bs rfl
    refine ⟨(s.afterHost.goto k).sendFail bs r, ?_, by simp [Failed, htmr]⟩
    rw [hstep rfl, runMicro, send_fails hcode]
  · rintro rfl hbf
    refine ⟨(s.afterHost.goto k).recvFail r, ?_, by simp [Failed, htmr], by simp⟩
    rw [hstep rfl, runMicro, bfOnly_bf (by simpa using hbf), recv_fails hcode]

end Sys2Proof.Machine
end

section
/-! PROOFS of the family 60_exceptions: every move of the engine leaves the operation going on or ends it with one
response, and a cancel is taken at a cancellation point only (R180, R184 to R187). -/

namespace Sys2Proof.Machine

open Sys2Proof

-- How a move leaves the operation

/-- No response, `STATUS` and a pending cancel as they were, and what stood in `SEQ` still to be done. -/
structure GoesOn (s t : State) : Prop where
  responses : t.responses = s.responses
  status : t.status = s.status
  cancelPend : t.cancelPend = s.cancelPend
  seq : s.seq <:+ t.seq

/-- After the responses `xs` the response `x`, and the idle engine behind it (R180, R190). -/
structure EndsWith (xs : List Response) (x : Response) (t : State) : Prop where
  responses : t.responses = xs ++ [x]
  seq : t.seq = []
  cancelPend : t.cancelPend = false
  status : t.status = x.status
  data : x.status ≠ .ok → x.data = []

theorem endsWith_raise (e : Status) (report : Option Report) (s : State) :
    EndsWith s.responses ⟨e, [], report⟩ (s.raise e report) :=
  ⟨rfl, rfl, rfl, rfl, fun _ => rfl⟩

theorem endsWith_sendFail (bs : BusState) (r : Report) (s : State) :
    EndsWith s.responses ⟨.transportFailure, [], some r⟩ (s.sendFail bs r) :=
  ⟨rfl, rfl, rfl, rfl, fun _ => rfl⟩

theorem endsWith_recvFail (r : Report) (s : State) :
    EndsWith s.responses ⟨.transportFailure, [], some r⟩ (s.recvFail r) :=
  ⟨rfl, rfl, rfl, rfl, fun _ => rfl⟩

theorem endsWith_complete (s : State) : EndsWith s.responses ⟨.ok, s.result, none⟩ s.complete :=
  ⟨rfl, rfl, rfl, rfl, fun h => absurd rfl h⟩

/-- A cancel is no argument fault (R191). -/
theorem argumentFault_ne_cancelled (cfg : Config) (i : Instr) : argumentFault cfg i ≠ some .cancelled := by
  cases i
  case opDefineChar | opRead => unfold argumentFault; split_ifs <;> simp
  all_goals simp [argumentFault]

/-- An instruction goes on with the operation, begins one, or ends it by an argument fault. -/
theorem exec_goesOn_or_ends {i : Instr} {s t : State} (h : exec i s = .next t) :
    GoesOn s t ∨ ∃ x, EndsWith s.responses x t ∧ x.status ≠ .cancelled := by
  rcases request_or_not i with ⟨r, hr⟩ | hi
  · rcases exec_request_next_cases hr h with ⟨-, rfl⟩ | ⟨-, e, he, rfl⟩ | ⟨hs, -, rfl⟩
    · exact .inl ⟨rfl, rfl, rfl, List.suffix_rfl⟩
    · refine .inr ⟨_, endsWith_raise e none (s.latch r), ?_⟩
      rintro rfl
      exact argumentFault_ne_cancelled s.cfg i he
    · exact .inl ⟨rfl, rfl, rfl, by rw [hs]; exact List.nil_suffix⟩
  · obtain rfl := exec_transaction_next hi h
    exact .inl ⟨rfl, rfl, rfl, List.suffix_append _ _⟩

/-- A position goes on with the operation, or ends it: by an argument fault, a failing call, or the completion. No
position takes a cancel. -/
theorem runMicro_goesOn_or_ends {m : Micro} {s t : State} (h : runMicro m s = .next t) :
    (m ≠ .finish ∧ GoesOn s t) ∨ ∃ x, EndsWith s.responses x t ∧ x.status ≠ .cancelled := by
  cases m with
  | run i | unit i => exact (exec_goesOn_or_ends h).imp_left fun hgo => ⟨nofun, hgo⟩
  | statusTest => exact (exec_goesOn_or_ends (i := decodeStatus s.byte) h).imp_left fun hgo => ⟨nofun, hgo⟩
  | send bs =>
    cases h
    rcases s.send_cases bs with ⟨-, hs⟩ | ⟨r, -, hs⟩ <;> rw [hs]
    · exact .inl ⟨nofun, rfl, rfl, rfl, List.suffix_rfl⟩
    · exact .inr ⟨_, endsWith_sendFail bs r s, nofun⟩
  | recv =>
    obtain ⟨-, rfl⟩ := bfOnly_next h
    rcases s.recv_cases with ⟨-, hs⟩ | ⟨r, -, hs⟩ <;> rw [hs]
    · exact .inl ⟨nofun, rfl, rfl, rfl, List.suffix_rfl⟩
    · exact .inr ⟨_, endsWith_recvFail r s, nofun⟩
  | dataLoop =>
    cases h
    rw [dataLoop_eq_push]
    exact .inl ⟨nofun, rfl, rfl, rfl, List.suffix_append _ _⟩
  | writeLow | readLow | keepRead | startData | byteSent | byteRead =>
    cases h
    exact .inl ⟨nofun, rfl, rfl, rfl, by simp⟩
  | finish => cases h; exact .inr ⟨_, endsWith_complete s, nofun⟩

/-- No response, `STATUS` as it was, a cancel pending on an operation in progress still pending; `SEQ` is as it was, or
the position it had reached, not the completion, has been run. -/
structure Continues (s t : State) : Prop where
  responses : t.responses = s.responses
  status : t.status = s.status
  cancelPend : s.seq ≠ [] → t.cancelPend = s.cancelPend
  seq : ∀ {m k}, s.seq = m :: k → t.seq = s.seq ∨ (m ≠ .finish ∧ k <:+ t.seq)

/-- A move of the engine leaves the operation in progress or ends it with one response, by a cancel only at a
cancellation point with the timer stopped (R141, R180, R186, R187). -/
theorem engine_continues_or_ends {c : Bool} {s t : State} (h : engine c s = .next t) :
    Continues s t ∨
    ∃ x, EndsWith s.responses x t ∧ (x.status = .cancelled → s.tmr = 0 ∧ atCancellationPoint s.seq = true) := by
  rcases engine_cases c s with ⟨-, he⟩ | ⟨-, -, -, he⟩ | ⟨-, hidle, r, -, he⟩ | ⟨htmr, -, hpoint, he⟩ |
    ⟨-, m, k, hmk, -, he⟩ <;> rw [he] at h
  · cases h; exact .inl ⟨rfl, rfl, fun _ => rfl, fun _ => .inl rfl⟩
  · cases h; exact .inl ⟨rfl, rfl, fun _ => rfl, fun _ => .inl rfl⟩
  · obtain ⟨i, u, -, -, hu, rfl⟩ := accept_next h
    rcases exec_goesOn_or_ends hu with hgo | ⟨x, hends, hx⟩
    · refine .inl ⟨hgo.responses, hgo.status, fun hbusy => absurd hidle hbusy, fun hmk => ?_⟩
      rw [hidle] at hmk; cases hmk
    · have hdropped : (u.raiseCancel c).cancelPend = false := by simp [State.busy, hends.seq, hends.cancelPend]
      exact .inr ⟨x, ⟨hends.responses, hends.seq, hdropped, hends.status, hends.data⟩, fun hx' => absurd hx' hx⟩
  · cases h; exact .inr ⟨_, endsWith_raise .cancelled none s, fun _ => ⟨htmr, hpoint⟩⟩
  · rcases runMicro_goesOn_or_ends h with ⟨hm, hgo⟩ | ⟨x, hends, hx⟩
    · refine .inl ⟨hgo.responses, hgo.status, fun _ => hgo.cancelPend, fun hmk' => .inr ?_⟩
      cases hmk.symm.trans hmk'
      exact ⟨hm, hgo.seq⟩
    · exact .inr ⟨x, hends, fun hx' => absurd hx' hx⟩

/-- With the completion behind its position an operation that continues is in progress (R26). -/
theorem Continues.busy {s t : State} (h : Continues s t) (hshape : SeqShape s.seq) (hs : s.seq ≠ []) :
    t.seq ≠ [] := by
  obtain ⟨m, k, hmk⟩ := List.exists_cons_of_ne_nil hs
  rcases h.seq hmk with hsame | ⟨hm, hsuffix⟩
  · rwa [hsame]
  · have ⟨_, hk⟩ := seqShape_expand (ms := []) (hmk ▸ hshape) hm (.inl nofun)
    exact fun hnil => hk (List.suffix_nil.1 (hnil ▸ hsuffix))

-- Cancellation

/-- A cancellation point stands before a unit and nowhere else (R186). -/
theorem atCancellationPoint_iff {ms : List Micro} : atCancellationPoint ms = true ↔ ∃ i k, ms = .unit i :: k := by
  constructor
  · intro h
    cases ms with
    | nil => cases h
    | cons m k =>
      cases m with
      | unit i => exact ⟨i, k, rfl⟩
      | _ => cases h
  · rintro ⟨i, k, rfl⟩
    rfl

/-- After the host's input a cancel is pending on a busy engine if it was before or is raised now (R184). -/
theorem afterHost_cancelPend_of_busy {s : State} (hs : s.seq ≠ [])
    (hc : s.cancelPend = true ∨ s.hostNow.cancel = true) : s.afterHost.cancelPend = true := by
  rw [afterHost_cancelPend, (State.busy_eq_true_iff s).2 hs]
  simpa using hc

/-- Settles O31: the cancel is pending once the host's input is consumed, and the engine takes it. -/
theorem cancelIsTakenBeforeAUnit : Obligations.CancelIsTakenBeforeAUnit := by
  intro s i k hreset htmr hseq hcancel
  refine ⟨s.afterHost.takeCancel, ?_, by simp⟩
  rw [step_no_reset hreset]
  refine engine_cancels (by rwa [afterHost_tmr]) (afterHost_cancelPend_of_busy ?_ hcancel) ?_ _
  · exact hseq ▸ List.cons_ne_nil _ _
  · exact atCancellationPoint_iff.2 ⟨i, k, by rwa [afterHost_seq]⟩

/-- Settles O32: the response a move adds is the one it ends the operation with. -/
theorem cancelNeverSplitsAUnit : Obligations.CancelNeverSplitsAUnit := by
  intro s t x hstep hreset hx hcancelled
  rw [step_no_reset hreset] at hstep
  rcases engine_continues_or_ends hstep with hgo | ⟨y, hends, hpoint⟩
  · have hnone := hgo.responses
    rw [hx, afterHost_responses] at hnone
    exact absurd hnone (by simp)
  · have hresponse := hends.responses
    rw [hx, afterHost_responses] at hresponse
    obtain rfl := List.singleton_inj.1 (List.append_cancel_left hresponse)
    rw [afterHost_tmr, afterHost_seq, atCancellationPoint_iff] at hpoint
    exact hpoint hcancelled

/-- Settles O33: as long as the operation continues the pending cancel stays; an idle engine with no request waits. -/
theorem cancelIsLatchedOnlyWhenBusy : Obligations.CancelIsLatchedOnlyWhenBusy := by
  refine ⟨fun s t hreset hcancel hseq hstep hbusy => ?_, fun s hreset hpresent hseq htmr hreq => ?_⟩
  · rw [step_no_reset hreset] at hstep
    rcases engine_continues_or_ends hstep with hgo | ⟨x, hends, -⟩
    · rw [hgo.cancelPend (by rwa [afterHost_seq]), afterHost_cancelPend_of_busy hseq hcancel]
    · exact absurd hends.seq hbusy
  · have hconsumed : s.afterHost = { s with host := s.host.tail } := by
      simp [afterHost_eq, hpresent, State.busy, hseq]
    rw [step_no_reset hreset, hconsumed]
    exact engine_waits (s := { s with host := s.host.tail }) htmr hseq hreq _

/-- Settles O35: the invariant keeps the completion behind every position, so an operation that continues is in
progress, and one that ends gives its response. -/
theorem oneResponsePerOperation : Obligations.OneResponsePerOperation := by
  intro s t hinv hstep hreset
  rw [step_no_reset hreset] at hstep
  rcases engine_continues_or_ends hstep with hgo | ⟨x, hends, -⟩
  · have hbusy : s.seq ≠ [] → t.seq ≠ [] := fun hs =>
      hgo.busy (by rw [afterHost_seq]; exact hinv.shape) (by rwa [afterHost_seq])
    exact .inl ⟨hgo.responses.trans (afterHost_responses s), hgo.status.trans (afterHost_status s), hbusy⟩
  · exact .inr ⟨x, by rw [hends.responses, afterHost_responses], hends.seq, hends.cancelPend, hends.status,
      hends.data⟩

end Sys2Proof.Machine
end

section
/-! PROOFS of the family 70_reset_and_hazards: a reset starts the engine anew (R210, R211), and outside `INIT`'s single
nibbles the engine owes whole nibble pairs (R217). -/

namespace Sys2Proof.Machine

open Sys2Proof

/-- Settles O41: the step is `State.restart`, whose fields are the reset values whatever the state was. -/
theorem resetAbandonsTheOperation : Obligations.ResetAbandonsTheOperation := by
  intro s cfg hreset
  have hrw : cfg.variant = .bf → (resetBus cfg).rw = some false := fun hbf => by rw [resetBus, hbf]
  exact ⟨_, step_resets hreset, rfl, rfl, rfl, rfl, rfl, hrw, rfl, rfl, rfl, rfl, rfl, rfl⟩

-- The Enable pulses of positions

/-- Enable pulses some positions still stand for. -/
def owed (ms : List Micro) : Nat := (ms.map Micro.pulses).sum

theorem pulsesOwed_eq (s : State) : s.pulsesOwed = pulses s.trace + owed s.seq := rfl

theorem owed_cons (m : Micro) (ms : List Micro) : owed (m :: ms) = m.pulses + owed ms := rfl

theorem owed_append (ms ms' : List Micro) : owed (ms ++ ms') = owed ms + owed ms' := by
  rw [owed, List.map_append, List.sum_append]; rfl

theorem pulsesOwed_congr {s t : State} (htrace : t.trace = s.trace) (hseq : t.seq = s.seq) :
    t.pulsesOwed = s.pulsesOwed := by
  rw [pulsesOwed_eq, pulsesOwed_eq, htrace, hseq]

theorem pulsesOwed_of_seq_eq_cons {s : State} {m : Micro} {k : List Micro} (hs : s.seq = m :: k) :
    s.pulsesOwed = m.pulses + (s.goto k).pulsesOwed := by
  rw [pulsesOwed_eq, pulsesOwed_eq, hs, owed_cons, State.goto_trace, State.goto_seq]
  exact Nat.add_left_comm _ _ _

/-- A unit stands for as many pulses as its instruction does elsewhere. -/
theorem pulses_unit (i : Instr) : (Micro.unit i).pulses = (Micro.run i).pulses := by
  cases i <;> rfl

/-- What a transaction puts in front of `SEQ` has the parity of its pulses: a nibble is one pulse, a byte two (R100 to
R103). -/
theorem owed_expansion (cfg : Config) (i : Instr) : owed (expansion cfg i) ≡ (Micro.run i).pulses [MOD 2] := by
  cases i
  case status busy g => cases busy <;> rfl
  case policyWait => unfold expansion; split_ifs <;> rfl
  case doCmd | doData | readData | busyWait =>
    -- the byte they begin with is a pair, which they did not owe before
    exact Nat.modEq_zero_iff_dvd.2 (dvd_refl 2)
  all_goals rfl

/-- A pass of the data loop transfers whole bytes (R126). -/
theorem owed_loopPositions (s : State) : owed (loopPositions s) = 0 := by
  unfold loopPositions
  split_ifs
  · rfl
  · rfl
  · split <;> rfl

/-- The event of a delay is no pulse. -/
theorem pulses_traceAfter (i : Instr) (es : List Event) : pulses (traceAfter i es) = pulses es := by
  cases i
  case delay n => exact pulses_append es [.delay n]
  all_goals rfl

-- Positions outside critical sections

/-- Outside the critical sections and the single nibbles a position stands for whole pairs (R185, R217). -/
theorem two_dvd_pulses {cfg : Config} {m : Micro} (hlegal : m.legal cfg = true) (hcodec : m.inCodec = false)
    (hsingle : m ≠ .run .initNibble3 ∧ m ≠ .run .initNibble2 ∧ ∀ rs n, m ≠ .unit (.write4 rs n)) : 2 ∣ m.pulses := by
  obtain ⟨hnibble3, hnibble2, hwrite4⟩ := hsingle
  cases m with
  | run i =>
    cases i
    case initNibble3 => exact absurd rfl hnibble3
    case initNibble2 => exact absurd rfl hnibble2
    case write4 | read4 => cases hcodec
    case write8 | read8 => exact dvd_refl 2
    all_goals exact dvd_zero 2
  | unit i =>
    cases i
    case write4 rs n => exact absurd rfl (hwrite4 rs n)
    case initNibble3 | initNibble2 | read4 => cases hlegal
    case write8 | read8 => exact dvd_refl 2
    all_goals exact dvd_zero 2
  | send | recv | writeLow | readLow => cases hcodec
  | statusTest | keepRead | startData | dataLoop | byteSent | byteRead | finish => exact dvd_zero 2

theorem two_dvd_owed {cfg : Config} {ms : List Micro} (hlegal : ∀ m ∈ ms, m.legal cfg = true)
    (hcodec : ∀ m ∈ ms, m.inCodec = false) (hsingle : NoSingleNibble ms) : 2 ∣ owed ms :=
  List.dvd_sum <| List.forall_mem_map.2 fun m hm => two_dvd_pulses (hlegal m hm) (hcodec m hm) (hsingle m hm)

/-- Behind a position outside the critical sections stands none inside one (R185). -/
theorem SeqShape.outside {m : Micro} {k : List Micro} (h : SeqShape (m :: k)) (hm : m.inCodec = false) :
    ∀ x ∈ m :: k, x.inCodec = false := by
  rcases h with hnil | ⟨codec, body, hmk, hcodec, hbody⟩
  · cases hnil
  cases codec with
  | nil =>
    rw [hmk, List.nil_append, List.forall_mem_append]
    exact ⟨fun x hx => (hbody x hx).1, List.forall_mem_singleton.2 rfl⟩
  | cons c codec =>
    obtain rfl : m = c := (List.cons.inj hmk).1
    rw [hcodec m List.mem_cons_self] at hm
    cases hm

-- What a move does to the pulses issued and owed

/-- Positions that stand in the place of `m`, without a pulse in the trace, keep the parity if they owe as `m` does. -/
theorem pulsesOwed_expand {m : Micro} {ms : List Micro} {s t : State} (htrace : pulses t.trace = pulses s.trace)
    (hseq : t.seq = ms ++ s.seq) (hms : owed ms ≡ m.pulses [MOD 2]) :
    t.pulsesOwed ≡ m.pulses + s.pulsesOwed [MOD 2] := by
  rw [pulsesOwed_eq, pulsesOwed_eq, htrace, hseq, owed_append, Nat.add_left_comm]
  exact hms.add_right _

theorem pulsesOwed_exec {i : Instr} {s t : State} (hi : ∀ r, encode i ≠ some (.request r))
    (h : exec i s = .next t) : t.pulsesOwed ≡ (Micro.run i).pulses + s.pulsesOwed [MOD 2] := by
  obtain rfl := exec_transaction_next hi h
  exact pulsesOwed_expand (pulses_traceAfter i s.trace) rfl (owed_expansion s.cfg i)

/-- A `send` with Enable high issues the pulse its position owed. -/
theorem pulsesOwed_sendOk (bs : BusState) (s : State) :
    (s.sendOk bs).pulsesOwed = (Micro.send bs).pulses + s.pulsesOwed := by
  have hsent : pulses [.send bs] = (Micro.send bs).pulses := by cases h : bs.e <;> simp [pulses, sends, Micro.pulses, h]
  rw [pulsesOwed_eq, pulsesOwed_eq, State.sendOk_trace, pulses_append, hsent, State.sendOk_seq, Nat.add_assoc,
    Nat.add_left_comm]

/-- The position reached gives way to what it owes, or issues it; only a failure or the completion drops positions. -/
theorem pulsesOwed_runMicro {m : Micro} {s t : State} (hm : RunsNoRequest m) (hfinish : m = .finish → s.seq = [])
    (hn : NoFailure t.trace) (h : runMicro m s = .next t) : t.pulsesOwed ≡ m.pulses + s.pulsesOwed [MOD 2] := by
  cases m with
  | run i => exact pulsesOwed_exec (hm i (.inl rfl)) h
  | unit i =>
    rw [pulses_unit]
    exact pulsesOwed_exec (hm i (.inr rfl)) h
  | statusTest => exact pulsesOwed_exec (decodeStatus_no_request s.byte) h
  | send bs =>
    cases h
    rcases s.send_cases bs with ⟨-, hs⟩ | ⟨r, -, hs⟩ <;> rw [hs] at hn ⊢
    · rw [pulsesOwed_sendOk]
    · exact absurd hn (not_noFailure_sendFailed s.trace bs)
  | recv =>
    obtain ⟨-, rfl⟩ := bfOnly_next h
    rcases s.recv_cases with ⟨-, hs⟩ | ⟨r, -, hs⟩ <;> rw [hs] at hn ⊢
    · exact pulsesOwed_expand (ms := []) (pulses_append s.trace [.recv s.answer]) rfl rfl
    · exact absurd hn (not_noFailure_recvFailed s.trace)
  | writeLow rs =>
    cases h
    exact pulsesOwed_expand (ms := [.run (.write4 rs (loNibble s.byte))]) rfl rfl rfl
  | readLow rs =>
    cases h
    exact pulsesOwed_expand (ms := [.run (.read4 rs)]) rfl rfl rfl
  | dataLoop =>
    cases h
    rw [dataLoop_eq_push]
    exact pulsesOwed_expand rfl rfl (by rw [owed_loopPositions]; rfl)
  | keepRead | startData | byteSent | byteRead =>
    cases h
    exact pulsesOwed_expand (ms := []) rfl rfl rfl
  | finish =>
    cases h
    exact pulsesOwed_expand (ms := []) rfl (hfinish rfl).symm rfl

/-- A request turned away leaves nothing behind, and one that begins without single nibbles owes whole pairs. -/
theorem pulsesOwed_accept {c : Bool} {r : Request} {s t : State} (hs : s.seq = []) (hsingle : NoSingleNibble t.seq)
    (h : accept c r s = .next t) : t.pulsesOwed ≡ s.pulsesOwed [MOD 2] := by
  obtain ⟨i, u, hdecode, -, hu, rfl⟩ := accept_next h
  obtain ⟨r', hr'⟩ := decode_request_encodes hdecode
  rcases exec_request_next_cases hr' hu with ⟨hbusy, -⟩ | ⟨-, e, -, rfl⟩ | ⟨-, -, rfl⟩
  · exact absurd hs hbusy
  · exact congrArg (· % 2) (pulsesOwed_congr rfl hs.symm)
  · have hlegal : ∀ m ∈ operationSteps s.cfg i ++ [.finish], m.legal s.cfg = true :=
      List.forall_mem_append.2 ⟨legal_operationSteps s.cfg i, List.forall_mem_singleton.2 rfl⟩
    have houtside : ∀ m ∈ operationSteps s.cfg i ++ [.finish], m.inCodec = false :=
      List.forall_mem_append.2 ⟨fun m hm => (outside_operationSteps s.cfg i m hm).1, List.forall_mem_singleton.2 rfl⟩
    rw [pulsesOwed_eq, pulsesOwed_eq, hs]
    exact ((Nat.modEq_zero_iff_dvd.2 (two_dvd_owed hlegal houtside hsingle)).add_left _)

/-- A cancel drops a unit and what stands behind it, which are whole pairs (R186, R217). -/
theorem pulsesOwed_takeCancel {s : State} (hshape : SeqShape s.seq) (hlegal : ∀ m ∈ s.seq, m.legal s.cfg = true)
    (hsingle : NoSingleNibble s.seq) (hpoint : atCancellationPoint s.seq = true) :
    s.takeCancel.pulsesOwed ≡ s.pulsesOwed [MOD 2] := by
  obtain ⟨i, k, hs⟩ := atCancellationPoint_iff.1 hpoint
  have houtside : ∀ m ∈ s.seq, m.inCodec = false := by
    rw [hs] at hshape ⊢
    exact hshape.outside rfl
  rw [pulsesOwed_eq, pulsesOwed_eq]
  exact ((Nat.modEq_zero_iff_dvd.2 (two_dvd_owed hlegal houtside hsingle)).add_left _).symm

theorem pulsesOwed_engine {c : Bool} {s t : State} (hshape : SeqShape s.seq)
    (hlegal : ∀ m ∈ s.seq, m.legal s.cfg = true) (hn : NoFailure t.trace) (hsingle : NoSingleNibble s.seq)
    (hsingle' : NoSingleNibble t.seq) (h : engine c s = .next t) : t.pulsesOwed ≡ s.pulsesOwed [MOD 2] := by
  rcases engine_cases c s with ⟨-, he⟩ | ⟨-, -, -, he⟩ | ⟨-, hidle, r, -, he⟩ | ⟨-, -, hpoint, he⟩ |
    ⟨-, m, k, hmk, -, he⟩ <;> rw [he] at h
  · cases h; rfl
  · cases h; rfl
  · exact pulsesOwed_accept hidle hsingle' h
  · cases h; exact pulsesOwed_takeCancel hshape hlegal hsingle hpoint
  · rw [hmk] at hshape hlegal
    rw [pulsesOwed_of_seq_eq_cons hmk]
    refine pulsesOwed_runMicro (runsNoRequest_of_legal (hlegal m List.mem_cons_self)) ?_ hn h
    rintro rfl
    exact seqShape_finish hshape

/-- Settles O59: the step is a move of the engine, and the invariant gives the shape and the legality of `SEQ` that its
branches need. -/
theorem nibblePhaseIsKept : Obligations.NibblePhaseIsKept := by
  intro s t hinv hstep hreset hn hsingle hsingle'
  rw [step_no_reset hreset] at hstep
  have hafter : s.afterHost.pulsesOwed = s.pulsesOwed := pulsesOwed_congr (afterHost_trace s) (afterHost_seq s)
  rw [← hafter]
  refine pulsesOwed_engine ?_ ?_ hn ?_ hsingle' hstep
  · rw [afterHost_seq]; exact hinv.shape
  · rw [afterHost_seq, afterHost_cfg]; exact hinv.legal
  · rw [afterHost_seq]; exact hsingle

end Sys2Proof.Machine
end
